-- ==== Sys2Proof/Word.lean ====
section
/-! DEFINITION. The word types of the 4316's ports and counters, and their plainest byte arithmetic. -/

namespace Sys2Proof

/-- A byte of the host bus (spec/07, R114). -/
abbrev Byte := BitVec 8

/-- A slot number, 0 to 127: the identity of a tool record (spec/01, R1). -/
abbrev Slot := Fin 128

/-- An edit stamp, a count from 0 to 65535 that wraps to 0 (spec/01, R17). -/
abbrev Stamp := BitVec 16

/-- A copy's generation, a number from 0 to 3 that wraps to 0 (spec/09, R149, R150). -/
abbrev Generation := BitVec 2

/-- A 16-bit word of the changer link (spec/06, R97). -/
abbrev LinkWord := BitVec 16

/-- Byte `i` of a multi-byte field; byte 0 is the least significant (spec/07, R114: little-endian). -/
def byteOf {n : Nat} (w : BitVec n) (i : Nat) : Byte := w.extractLsb' (8 * i) 8

/-- A 16-bit field whose low byte is replaced; the other byte keeps its value (spec/07, R115). -/
def withLow (w : BitVec 16) (b : Byte) : BitVec 16 := w.extractLsb' 8 8 ++ b

/-- A 16-bit field whose high byte is replaced; the other byte keeps its value (spec/07, R115). -/
def withHigh (w : BitVec 16) (b : Byte) : BitVec 16 := b ++ w.extractLsb' 0 8

end Sys2Proof
end

