-- ==== Sys2Proof/Syntax.lean ====
section
/-! DEFINITION. The commands of the 4316: one constructor of `Instr` per row of spec/opcode_table.json. -/

namespace Sys2Proof

/-- When a part of a step that the spec lets come later takes place: within the step, or in a step of its own.
For a request of the link: whether its block takes it in the step of the latch (spec/06, R100) or later, by
REQUEST_TAKE_BY_BLOCK (R101; log 3). For a commit attempt: whether a confirmation record that can end does so in
the step of the outcome (spec/05, R81, R82) or later, by ANSWER_RELEASE (log 4). -/
inductive Timing where
  | inStep
  | later
deriving DecidableEq, Repr

/-- The outcome of the verify that ends a write attempt (spec/09, R154). -/
inductive Verify where
  | pass
  | fail
deriving DecidableEq, Repr

/-- The commands, in the order of the table. A link request is the trailing edge of /RQSTB while the word of its
kind stands on RQ15–RQ0, `operand` being bits 11–0 (spec/06, R97, R100). A host command is a write of its code to
COMMAND (spec/07, R117); it reads its arguments from the argument registers, the work record and the staging
registers, so it carries no operand. -/
inductive Instr where
  /-- CALL, kind 1; the operand is the tool number (R41, R98). -/
  | call (operand : BitVec 12) (take : Timing)
  /-- PUTAWAY, kind 6 (R77). -/
  | putaway (operand : BitVec 12) (take : Timing)
  /-- DONE, kind 2; the operand is the tag (R86, R88). -/
  | done (operand : BitVec 12)
  /-- ABANDON, kind 3; the operand is the tag (R87, R88). -/
  | abandon (operand : BitVec 12)
  /-- CHARGE, kind 4; the operand is the amount (R19). -/
  | charge (operand : BitVec 12) (take : Timing)
  /-- DAMAGE, kind 5 (R26). -/
  | damage (operand : BitVec 12) (take : Timing)
  /-- PROBE, kind 7; the operand is a tool number, or 0 for the spindle (R50, R52). -/
  | probe (operand : BitVec 12) (take : Timing)
  /-- A request word of kind 0 or 8 to 15 (R98). -/
  | unknownRequest (kind : BitVec 4) (operand : BitVec 12)
  /-- A leading edge of /RQSTB that meets a busy link (R108). -/
  | strobeWhileBusy
  /-- The trailing edge of /ANTAKE (R104). -/
  | answerTake
  /-- A leading edge of /ANTAKE while ANRDY is low (R109). -/
  | takeWithoutAnswer
  /-- A confirmation record that can end ends (R80, R105). -/
  | answerRelease
  /-- The exchange timer expires (R90). -/
  | exchangeTimerExpiry
  /-- /RESET is asserted (R92, R111, R133). -/
  | reset
  /-- Command code 1 (R120). -/
  | fetch
  /-- Command code 2 (R121). -/
  | new
  /-- Command code 3 (R122–R128). -/
  | store
  /-- Command code 4 (R119). -/
  | discard
  /-- Command code 5 (R129). -/
  | release
  /-- Command code 6 (R53). -/
  | locate
  /-- Command code 7 (R93). -/
  | resolveMoved
  /-- Command code 8 (R93). -/
  | resolveNotMoved
  /-- Command code 9 (R63). -/
  | declareSpindleEmpty
  /-- Command code 10 (R130). -/
  | retryStore
  /-- Command code 11 (R131). -/
  | flush
  /-- A waiting FLUSH finds the queue drained (R131). -/
  | flushComplete
  /-- Command code 12 (R71, R72). -/
  | configStore
  /-- A command code that names no command (R117). -/
  | unknownCommand (code : Byte)
  /-- A write of STATUS (R115). -/
  | statusWrite (data : Byte)
  /-- A write of INT_PENDING (R143). -/
  | intPendingWrite (data : Byte)
  /-- A write of INT_ENABLE (R147). -/
  | intEnableWrite (data : Byte)
  /-- A write with A10 = 0 to a position without behaviour of its own; `address` is A9–A0 (R113, R115). -/
  | registerWrite (address : BitVec 10) (data : Byte)
  /-- Flag-space write: set HOLD (R138). -/
  | holdSet (slot : Slot)
  /-- Flag-space write: clear HOLD (R138). -/
  | holdClear (slot : Slot)
  /-- Flag-space write: set MEASURE (R138). -/
  | measureSet (slot : Slot)
  /-- Flag-space write: clear MEASURE (R138). -/
  | measureClear (slot : Slot)
  /-- Flag-space write: set ATTN (R139). -/
  | attnSet (slot : Slot)
  /-- Flag-space write: clear ATTN (R139). -/
  | attnClear (slot : Slot)
  /-- Flag-space write of DIRTY; `value` is A7, set or clear (R140). -/
  | dirtyWrite (slot : Slot) (value : Bool)
  /-- The head of the commit queue is taken into flight (R153). -/
  | commitStart
  /-- A write attempt ends with its verify; `notice` says when a record that can end ends (R154–R156, R81). -/
  | commitAttempt (verify : Verify) (notice : Timing)
  /-- VCC rises above the rising write threshold (R163, R164). -/
  | vccRise
  /-- VCC falls below the falling write threshold (R163–R165). -/
  | vccFall
  /-- VCC falls to the power-off level (R167). -/
  | powerOff
  /-- The settle interval ends (R163, R166). -/
  | settleIntervalEnd
  /-- The start-up scan completes (R168–R174). -/
  | scanComplete
  /-- A leading edge of /RQSTB (R99). -/
  | rqstbLeadingEdge
  /-- A leading edge of /ANTAKE (R103). -/
  | antakeLeadingEdge
  /-- /RESET is released (R111). -/
  | resetRelease
  /-- The owning block takes a handed-on request (R101). -/
  | requestTakeByBlock
deriving DecidableEq, Repr

end Sys2Proof
end

