-- ==== Sys2Proof/Config.lean ====
section
/-! DEFINITION. What the part fixes: identification, limits and defaults the spec states, and the constants it
leaves open, which have no body. -/

namespace Sys2Proof.Config

/-- ID_PART, the part code (spec/07, R114). -/
def partCode : Byte := 67

/-- ID_REV, the revision (spec/07, R114). -/
def revision : Byte := 1

/-- The greatest charged total, at which a sum is held (spec/01, R8; spec/02, R20). -/
def chargedMax : Nat := 16777215

/-- The greatest value an answer word's value field carries (spec/06, R97; spec/02, R22). -/
def valueMax : Nat := 2047

/-- The attempts a commit is given (spec/09, R154). -/
def attemptMax : Nat := 3

/-- The least and greatest configured pocket count (spec/04, R55). -/
def pocketsMin : Nat := 8
/-- The greatest configured pocket count (spec/04, R55). -/
def pocketsMax : Nat := 120

/-- The blank-array default of the pocket count (spec/04, R55). -/
def blankPockets : Nat := 24

/-- The blank-array default of the exchange timeout, in seconds (spec/04, R55). -/
def blankTimeout : Nat := 30

/-- What bits 7 and 6 of STATUS read: R114 names bits 5 to 0 only. UNVERIFIED, no value is chosen (log 26). Safe. -/
opaque statusSpare : BitVec 2

/-- What bits 7 to 3 of WR_INDIC are given by a FETCH: R114 names bits 2 to 0 only. UNVERIFIED, no value is chosen
(log 26). Safe. -/
opaque indicSpare : BitVec 5

end Sys2Proof.Config
end

