-- ==== Sys2Proof/WellFormed.lean ====
section
/-! DEFINITION. Which terms of `Instr` spell an event under its own row of the table. A term that is not well formed
spells an event that the table lists under another row; it still has that event's effect (log 8). -/

namespace Sys2Proof

/-- The request kinds that name no request: 0 and 8 to 15 (spec/06, R98). -/
def unknownKind (kind : BitVec 4) : Bool := kind == 0 || 8 ≤ kind.toNat

/-- The command codes that name no command: 0 and 13 to 255 (spec/07, R117). -/
def unknownCode (code : Byte) : Bool := code == 0 || 13 ≤ code.toNat

/-- The window addresses whose write has behaviour of its own and a row of its own: STATUS, COMMAND, INT_PENDING and
INT_ENABLE (spec/07, R115, R117; spec/08, R143, R147). -/
def ownRowAddress (address : BitVec 10) : Bool :=
  address == 0x03 || address == 0x04 || address == 0x0A || address == 0x0B

/-- The term spells an event under its own row. -/
def Instr.wellFormed : Instr → Bool
  | .unknownRequest kind _ => unknownKind kind
  | .unknownCommand code => unknownCode code
  | .registerWrite address _ => !ownRowAddress address
  | _ => true

end Sys2Proof
end

