-- ==== Sys2Proof/Decode.lean ====
section
/-! DEFINITION. The command that a word spells by the bits of spec/opcode_table.json. No row of the table gives bits
(its "fields" are empty for all 50 rows), so no word spells a command (log 10). The layouts that the spec's own
text gives are modelled where they act: the request and answer words of R97 in Machine/Operands.lean, the register
window of R114 and the flag-space address of R135 in Machine/HostPort.lean and Machine/Flags.lean, with the commands
that the host's writes and the link's words are (`hostWrite`, `requestCommand`). -/

namespace Sys2Proof

/-- The command spelled by a word of `nbits` bits: none, for no row of the table gives bits (log 10). -/
def decodeTableWord (_nbits _w : Nat) : Option Instr := none

end Sys2Proof
end

