-- ==== Sys2Proof/Machine/State.lean ====
section
/-! DEFINITION. The state of the 4316 as plain data, block by block (spec/00, functional block diagram), the reasons
a step can stop, and the state after power-on. -/

namespace Sys2Proof.Machine

/-! ### Tool records (spec/01) -/

/-- The condition of a slot; host codes 0 to 5 in this order (R4, R5). -/
inductive Condition where
  | vacant | fresh | used | nearEnd | worn | damaged
deriving DecidableEq, Repr

/-- The size class; host codes 0 and 1 (R4, R7). -/
inductive Size where
  | normal | large
deriving DecidableEq, Repr

/-- The life mode; host codes 0 to 2: NONE, COUNT, TIME (R4, R8, R18). -/
inductive LifeMode where
  | uncounted | count | time
deriving DecidableEq, Repr

/-- The location record: kind and pocket part (R10); `nowhere` is a vacant slot's kind code 0 (R12). -/
inductive Location where
  | nowhere
  | pocket (p : Nat)
  | spindle
  | out
  | transitIn (p : Nat)
  | transitBack (p : Nat)
  | unknown (p : Option Nat)
deriving DecidableEq, Repr

/-- The persistent fields of a tool record (R4). Numbers are Nat; their ranges are kept by the rules that write
them (log 19). -/
structure Record where
  condition : Condition
  tool : Nat
  rank : Nat
  size : Size
  mode : LifeMode
  limit : Nat
  remaining : Nat
  warn : Nat
  charged : Nat
  location : Location
  home : Nat
  hold : Bool
  measure : Bool
deriving DecidableEq, Repr

/-- The persistent fields of a VACANT slot, all at their zero values (R12). -/
def Record.vacant : Record :=
  { condition := .vacant, tool := 0, rank := 0, size := .normal, mode := .uncounted, limit := 0, remaining := 0,
    warn := 0, charged := 0, location := .nowhere, home := 0, hold := false, measure := false }

/-- One slot of the image: the persistent fields and the volatile state of R14 to R17. -/
structure SlotState where
  fields : Record
  attn : Bool
  dirty : Bool
  storeFault : Bool
  stamp : Stamp
deriving DecidableEq, Repr

/-- A slot as it reads from the start of SETTLING after power-on until the scan completes (R1). -/
def SlotState.blank : SlotState :=
  { fields := Record.vacant, attn := false, dirty := false, storeFault := false, stamp := 0 }

/-- The image: the working copy of all 128 slots (R1). -/
abbrev Image := Vector SlotState 128

/-! ### The ring and the spindle (spec/04) -/

/-- The return policy; host codes 0 and 1 (R55). -/
inductive Policy where
  | fixed | swap
deriving DecidableEq, Repr

/-- The three values of the configuration record (R55). -/
structure Configuration where
  pockets : Nat
  policy : Policy
  timeout : Nat
deriving DecidableEq, Repr

/-- The blank-array defaults (R55). -/
def Configuration.blank : Configuration :=
  { pockets := Config.blankPockets, policy := .fixed, timeout := Config.blankTimeout }

/-- The spindle state; host codes 0 to 3 (R61). -/
inductive Spindle where
  | empty
  | holds (k : Slot)
  | exchanging
  | unknown
deriving DecidableEq, Repr

/-! ### The exchange (spec/05) -/

/-- The slots and pockets of an exchange by its kind: a CALL has an incoming slot and its source pocket, and an
outgoing slot with its return pocket when the spindle held a tool; a PUTAWAY has an outgoing slot alone (R74). -/
inductive Movement where
  | call (incoming : Slot) (source : Nat) (outgoing : Option (Slot × Nat))
  | putaway (outgoing : Slot) (returnPocket : Nat)
deriving DecidableEq, Repr

/-- The fields that an open exchange keeps in every open state (R74). -/
structure OpenExchange where
  tag : Nat
  movement : Movement
deriving DecidableEq, Repr

/-- The suspicion cause; host codes 1 and 2 (R74). -/
inductive Suspicion where
  | timeout | reset
deriving DecidableEq, Repr

/-- The exchange context by its state; host codes 0 to 3 (R74, R75). In RESERVED `timer` holds the seconds with
which the exchange timer was started (R84, R85; not counted down, log 9). -/
inductive Exchange where
  | idle
  | offered (x : OpenExchange)
  | reserved (x : OpenExchange) (timer : Nat)
  | suspect (x : OpenExchange) (cause : Suspicion)
deriving DecidableEq, Repr

/-- The answer a confirmation record withholds (R80): TAG with its tag and return pocket, DONE_OK or ABANDONED with
the tag. -/
inductive Withheld where
  | tag (tag returnPocket : Nat)
  | doneOk (tag : Nat)
  | abandoned (tag : Nat)
deriving DecidableEq, Repr

/-- A confirmation record (R80): the answer withheld, the waiting list with its marks, and the slot of the failure
notice that ends it, once one has arrived (R82, R89). -/
structure Confirmation where
  withheld : Withheld
  waiting : List (Slot × Bool)
  failed : Option Slot
deriving DecidableEq, Repr

/-! ### The changer link (spec/06) -/

/-- The answer words of R106, codes 1 to 30 in this order, each with the number or numbers its value field carries. -/
inductive Answer where
  | issue (source : Nat)
  | issueMeasure (source : Nat)
  | tag (tag returnPocket : Nat)
  | inSpindle (rank : Nat)
  | stow (returnPocket : Nat)
  | doneOk (tag : Nat)
  | abandoned (tag : Nat)
  | charged (value : Nat)
  | chargedNearEnd (value : Nat)
  | chargedWorn (conditionCode : Nat)
  | damageNoted (tool : Nat)
  | selectable (pocket : Nat)
  | spindleHolds (tool : Nat)
  | spindleEmpty
  | spindleUnknown
  | unknownTool (tool : Nat)
  | exhausted (members : Nat)
  | unavailable (rank : Nat)
  | noRoom (pocket : Nat)
  | exchangeOpen (tag : Nat)
  | suspect (tag : Nat)
  | noExchange
  | badTag (tag : Nat)
  | tooLate (tag : Nat)
  | busyExchange
  | notReady (which : Nat)
  | powerLow
  | badRequest (kind : Nat)
  | storeFault (slot : Nat)
  | doneUnsaved (tag : Nat)
deriving DecidableEq, Repr

/-- The phase of the link (R96). -/
inductive Phase where
  | idle | receiving | handedOn | answering
deriving DecidableEq, Repr

/-- The presentation status of the word at the current position (R96). -/
inductive Presentation where
  | held | shown | taking
deriving DecidableEq, Repr

/-- The link fault kind; host codes 0 to 2 (R96, R110). -/
inductive LinkFault where
  | none | strobeWhileBusy | takeWithoutAnswer
deriving DecidableEq, Repr

/-- The state of the Changer Link (R96). `answers` are the word positions, none where the word is still withheld
(R102); `position` counts from 0. `leftRunning` says that the operating state has left RUNNING since the word was
handed on (R101; log 15). The mark of a lost answer (R112) is the field `lostAnswer` of `State` (log 28). -/
structure Link where
  phase : Phase
  latch : Option LinkWord
  answers : List (Option Answer)
  position : Nat
  status : Presentation
  rqMark : Bool
  anMark : Bool
  leftRunning : Bool
  an : LinkWord
  fault : LinkFault
deriving DecidableEq, Repr

/-- The link at power-on and at /RESET (R96, R111). -/
def Link.cleared : Link :=
  { phase := .idle, latch := none, answers := [], position := 0, status := .held, rqMark := false, anMark := false,
    leftRunning := false, an := 0, fault := .none }

/-! ### The host port (spec/07, spec/08) -/

/-- The RESULT codes 0 to 15, in this order (R117). -/
inductive Result where
  | ok | notFetched | isVacant | notVacant | range | rankTaken | pocketConflict | spindleTaken | locked | stale
  | inMachine | frozen | noExchange | noFault | notFound | unknownCommand
deriving DecidableEq, Repr

/-- The state of the work record (R119). -/
inductive WorkState where
  | empty
  | fetched (k : Slot) (stamp : Stamp)
  | new (k : Slot)
deriving DecidableEq, Repr

/-- The work-record field positions 0x24 to 0x38, as last written or placed (R114, R115). -/
structure WorkFields where
  directive : Byte
  condition : Byte
  tool : BitVec 16
  rank : Byte
  size : Byte
  mode : Byte
  limit : BitVec 16
  remaining : BitVec 16
  warn : BitVec 16
  charged : BitVec 24
  locKind : Byte
  locPocket : Byte
  home : Byte
  flags : Byte
  indic : Byte
deriving DecidableEq, Repr

/-- The field positions at power-on: every one reads 0 (R134). -/
def WorkFields.zero : WorkFields :=
  { directive := 0, condition := 0, tool := 0, rank := 0, size := 0, mode := 0, limit := 0, remaining := 0, warn := 0,
    charged := 0, locKind := 0, locPocket := 0, home := 0, flags := 0, indic := 0 }

/-- The pending event causes (R142, R143); the level cause ATTENTION is computed (R145). -/
structure Causes where
  command : Bool
  suspect : Bool
  link : Bool
  supply : Bool
  configFault : Bool
deriving DecidableEq, Repr

/-- No event cause pending. -/
def Causes.clear : Causes :=
  { command := false, suspect := false, link := false, supply := false, configFault := false }

/-- The state of the Host Port (R114, R117, R119, R142). `busy` is the command state BUSY. -/
structure HostPort where
  busy : Bool
  command : Byte
  result : Result
  cmdRefused : Bool
  argSlot : Byte
  argTool : BitVec 16
  argPos : Byte
  pocketSelect : Byte
  stageP : Byte
  stagePolicy : Byte
  stageTimeout : Byte
  workState : WorkState
  work : WorkFields
  causes : Causes
  enable : BitVec 6
deriving DecidableEq, Repr

/-- The Host Port at power-on (R133, R134, R148). -/
def HostPort.powerOn : HostPort :=
  { busy := false, command := 0, result := .ok, cmdRefused := false, argSlot := 0, argTool := 0, argPos := 0,
    pocketSelect := 0, stageP := 0, stagePolicy := 0, stageTimeout := 0, workState := .empty, work := WorkFields.zero,
    causes := Causes.clear, enable := 0 }

/-! ### The persistent array and the commit engine (spec/09) -/

/-- The state of one persistent copy (R149): erased, valid with its fields and generation, or invalid. The check
word is what tells valid from invalid (log 11). -/
inductive Copy (α : Type) where
  | erased
  | valid (fields : α) (gen : Generation)
  | invalid
deriving DecidableEq, Repr

/-- Copy A and copy B of a slot or of the configuration record (R149). -/
structure CopyPair (α : Type) where
  a : Copy α
  b : Copy α
deriving DecidableEq, Repr

/-- Which of the two copies. -/
inductive CopyName where
  | a | b
deriving DecidableEq, Repr

/-- The Commit Engine's record of a newest valid copy: which it is, and its generation (R150). -/
structure Newest where
  copy : CopyName
  gen : Generation
deriving DecidableEq, Repr

/-- An entry of the commit queue: a slot or CFG (R151). -/
inductive Entry where
  | slot (k : Slot)
  | cfg
deriving DecidableEq, Repr

/-- The class of an entry (R151). -/
inductive CommitClass where
  | urgent | normal
deriving DecidableEq, Repr

/-- The commit queue in its two parts, each in order of arrival (R151). -/
structure CommitQueue where
  urgent : List Entry
  normal : List Entry
deriving DecidableEq, Repr

/-- What a flight writes: a slot's persistent fields with the edit stamp at that moment, or the applied
configuration values (R153). -/
inductive Snapshot where
  | slot (k : Slot) (fields : Record) (stamp : Stamp)
  | cfg (values : Configuration)
deriving DecidableEq, Repr

/-- The commit in flight (R153). `confirmSet` says that an open, a DONE or an ABANDON has set the slot's confirm-from
stamp during this flight (R156; log 14). -/
structure Flight where
  content : Snapshot
  cls : CommitClass
  attempt : Nat
  target : CopyName
  gen : Generation
  confirmSet : Bool
deriving DecidableEq, Repr

/-! ### The whole part -/

/-- The operating state; OPSTATE codes 1 to 4 for the last four (R114, R163). -/
inductive OpState where
  | off | settling | scanning | running | frozen
deriving DecidableEq, Repr

/-- The state of the 4316, and the queue of commands that wait (log 10). INVENTORY.md, State, names the rule of each
field. -/
@[ext]
structure State where
  opState : OpState
  settleRunning : Bool
  imageHeld : Bool
  resetLow : Bool
  image : Image
  config : Option Configuration
  spindle : Spindle
  exchange : Exchange
  nextTag : Nat
  confirmation : Option Confirmation
  link : Link
  /-- The request whose answer the link has marked as lost (R112; log 28). -/
  lostAnswer : Option LinkWord
  host : HostPort
  queue : CommitQueue
  flight : Option Flight
  newest : Vector (Option Newest) 128
  cfgNewest : Option Newest
  confirmFrom : Vector (Option Stamp) 128
  slotCopies : Vector (CopyPair Record) 128
  cfgCopies : CopyPair Configuration
  pending : List Instr
deriving DecidableEq, Repr

/-- No command of the 4316 stops the part, so there is no fault: every refusal of the spec is an answer word, a
RESULT code, or an ignored write or edge, each a next state. -/
inductive Fault where
deriving DecidableEq, Repr

/-- The reasons a command has no meaning. -/
inductive Refusal where
  /-- Raised by no arm of `exec`: every command of the table has its meaning. Safe. -/
  | notModelled (mnemonic : String)
deriving DecidableEq, Repr

/-- Every volatile part of the 4316 at the value the spec gives it from the start of SETTLING after power-on (R1,
R38, R61, R73, R74, R96, R134, R148, R160); the persistent array, the /RESET pin and the queue of commands are kept.
The same values stand for the volatile state that is lost in OFF (R167; log 2). -/
def State.volatileCleared (s : State) (op : OpState) (settle : Bool) : State :=
  { opState := op, settleRunning := settle, imageHeld := false, resetLow := s.resetLow,
    image := Vector.replicate 128 SlotState.blank, config := none, spindle := .unknown, exchange := .idle,
    nextTag := 1, confirmation := none, link := Link.cleared, lostAnswer := none,
    host := HostPort.powerOn,
    queue := { urgent := [], normal := [] }, flight := none, newest := Vector.replicate 128 none, cfgNewest := none,
    confirmFrom := Vector.replicate 128 none, slotCopies := s.slotCopies, cfgCopies := s.cfgCopies,
    pending := s.pending }

/-- The part in the step in which VCC has risen from OFF into SETTLING, over a blank array, with /RESET released and
no command waiting (R1, R163; log 1). -/
def State.reset : State :=
  { opState := .settling, settleRunning := true, imageHeld := false, resetLow := false,
    image := Vector.replicate 128 SlotState.blank, config := none, spindle := .unknown, exchange := .idle,
    nextTag := 1, confirmation := none, link := Link.cleared, lostAnswer := none,
    host := HostPort.powerOn,
    queue := { urgent := [], normal := [] }, flight := none, newest := Vector.replicate 128 none, cfgNewest := none,
    confirmFrom := Vector.replicate 128 none,
    slotCopies := Vector.replicate 128 { a := .erased, b := .erased }, cfgCopies := { a := .erased, b := .erased },
    pending := [] }

end Sys2Proof.Machine
end

