-- ==== Sys2Proof/Machine/Operands.lean ====
section
/-! DEFINITION. The codes and word layouts that the ports see: the link's request and answer words (spec/06, R97,
R98, R106) and the host codes of the enumerated fields (spec/01, R4; spec/04, R55, R60, R61; spec/05, R74;
spec/07, R114, R117). -/

namespace Sys2Proof.Machine

/-! ### Request words -/

/-- The request kinds by name (R98). -/
def kindCall : BitVec 4 := 1
/-- DONE (R98). -/
def kindDone : BitVec 4 := 2
/-- ABANDON (R98). -/
def kindAbandon : BitVec 4 := 3
/-- CHARGE (R98). -/
def kindCharge : BitVec 4 := 4
/-- DAMAGE (R98). -/
def kindDamage : BitVec 4 := 5
/-- PUTAWAY (R98). -/
def kindPutaway : BitVec 4 := 6
/-- PROBE (R98). -/
def kindProbe : BitVec 4 := 7

/-- The request word: kind in bits 15–12, operand in bits 11–0 (R97). -/
def requestWord (kind : BitVec 4) (operand : BitVec 12) : LinkWord := kind ++ operand

/-- The kind field of a request word (R97). -/
def requestKind (w : LinkWord) : BitVec 4 := w.extractLsb' 12 4

/-- The operand field of a request word (R97). -/
def requestOperand (w : LinkWord) : BitVec 12 := w.extractLsb' 0 12

/-- Tests 2 and 3 of the decode: the kind names a request and the operand lies in the range the kind allows (R98). -/
def requestAccepted (kind : BitVec 4) (operand : BitVec 12) : Bool :=
  match kind.toNat with
  | 1 => decide (1 ≤ operand.toNat ∧ operand.toNat ≤ 2047)
  | 2 => decide (1 ≤ operand.toNat ∧ operand.toNat ≤ 15)
  | 3 => decide (1 ≤ operand.toNat ∧ operand.toNat ≤ 15)
  | 4 => true
  | 5 => decide (operand.toNat = 0)
  | 6 => decide (operand.toNat = 0)
  | 7 => decide (operand.toNat ≤ 2047)
  | _ => false

/-! ### Answer words -/

/-- The result code of an answer word (R106). -/
def Answer.code : Answer → Nat
  | .issue _ => 1
  | .issueMeasure _ => 2
  | .tag _ _ => 3
  | .inSpindle _ => 4
  | .stow _ => 5
  | .doneOk _ => 6
  | .abandoned _ => 7
  | .charged _ => 8
  | .chargedNearEnd _ => 9
  | .chargedWorn _ => 10
  | .damageNoted _ => 11
  | .selectable _ => 12
  | .spindleHolds _ => 13
  | .spindleEmpty => 14
  | .spindleUnknown => 15
  | .unknownTool _ => 16
  | .exhausted _ => 17
  | .unavailable _ => 18
  | .noRoom _ => 19
  | .exchangeOpen _ => 20
  | .suspect _ => 21
  | .noExchange => 22
  | .badTag _ => 23
  | .tooLate _ => 24
  | .busyExchange => 25
  | .notReady _ => 26
  | .powerLow => 27
  | .badRequest _ => 28
  | .storeFault _ => 29
  | .doneUnsaved _ => 30

/-- The value field of an answer word, 11 bits; TAG carries its tag in bits 10–7 and its pocket in bits 6–0 (R97,
R106). -/
def Answer.value : Answer → BitVec 11
  | .issue p => BitVec.ofNat 11 p
  | .issueMeasure p => BitVec.ofNat 11 p
  | .tag t p => BitVec.ofNat 4 t ++ BitVec.ofNat 7 p
  | .inSpindle r => BitVec.ofNat 11 r
  | .stow p => BitVec.ofNat 11 p
  | .doneOk t => BitVec.ofNat 11 t
  | .abandoned t => BitVec.ofNat 11 t
  | .charged v => BitVec.ofNat 11 v
  | .chargedNearEnd v => BitVec.ofNat 11 v
  | .chargedWorn c => BitVec.ofNat 11 c
  | .damageNoted t => BitVec.ofNat 11 t
  | .selectable p => BitVec.ofNat 11 p
  | .spindleHolds t => BitVec.ofNat 11 t
  | .spindleEmpty => 0
  | .spindleUnknown => 0
  | .unknownTool t => BitVec.ofNat 11 t
  | .exhausted n => BitVec.ofNat 11 n
  | .unavailable r => BitVec.ofNat 11 r
  | .noRoom p => BitVec.ofNat 11 p
  | .exchangeOpen t => BitVec.ofNat 11 t
  | .suspect t => BitVec.ofNat 11 t
  | .noExchange => 0
  | .badTag t => BitVec.ofNat 11 t
  | .tooLate t => BitVec.ofNat 11 t
  | .busyExchange => 0
  | .notReady w => BitVec.ofNat 11 w
  | .powerLow => 0
  | .badRequest k => BitVec.ofNat 11 k
  | .storeFault k => BitVec.ofNat 11 k
  | .doneUnsaved t => BitVec.ofNat 11 t

/-- The answer word driven on AN15–AN0: result in bits 15–11, value in bits 10–0 (R97). -/
def Answer.word (a : Answer) : LinkWord := BitVec.ofNat 5 a.code ++ a.value

/-- The answer that a confirmation record releases when every slot is confirmed (R80, R105). -/
def Withheld.released : Withheld → Answer
  | .tag t p => .tag t p
  | .doneOk t => .doneOk t
  | .abandoned t => .abandoned t

/-! ### Host codes -/

/-- Host code of a condition (R4). -/
def Condition.code : Condition → Nat
  | .vacant => 0
  | .fresh => 1
  | .used => 2
  | .nearEnd => 3
  | .worn => 4
  | .damaged => 5

/-- Host code of a size (R4). -/
def Size.code : Size → Nat
  | .normal => 0
  | .large => 1

/-- The size a code names (R4, R124). -/
def sizeOfCode (c : Byte) : Option Size :=
  match c.toNat with
  | 0 => some .normal
  | 1 => some .large
  | _ => none

/-- Host code of a life mode (R4). -/
def LifeMode.code : LifeMode → Nat
  | .uncounted => 0
  | .count => 1
  | .time => 2

/-- The life mode a code names (R32). -/
def modeOfCode (c : Byte) : Option LifeMode :=
  match c.toNat with
  | 0 => some .uncounted
  | 1 => some .count
  | 2 => some .time
  | _ => none

/-- Host code of a location kind; 0 for a vacant slot (R4, R12). -/
def Location.kindCode : Location → Nat
  | .nowhere => 0
  | .pocket _ => 1
  | .spindle => 2
  | .out => 3
  | .transitIn _ => 4
  | .transitBack _ => 5
  | .unknown _ => 6

/-- The pocket part of a location, where it is present (R10). -/
def Location.pocketPart : Location → Option Nat
  | .pocket p => some p
  | .transitIn p => some p
  | .transitBack p => some p
  | .unknown p => p
  | _ => none

/-- The location that a kind code and a pocket byte spell, with the normalisations of R124: the pocket of SPINDLE
and OUT is stored as absent, and pocket 0 of UNKNOWN is absent. -/
def locationOfCodes (kind pocket : Byte) : Option Location :=
  match kind.toNat with
  | 1 => some (.pocket pocket.toNat)
  | 2 => some .spindle
  | 3 => some .out
  | 4 => some (.transitIn pocket.toNat)
  | 5 => some (.transitBack pocket.toNat)
  | 6 => some (.unknown (if pocket.toNat = 0 then none else some pocket.toNat))
  | _ => none

/-- The condition directive (R27); window codes 0 to 2 (R114). -/
inductive Directive where
  | keep | renew | retire
deriving DecidableEq, Repr

/-- The directive a code names (R32, R114). -/
def directiveOfCode (c : Byte) : Option Directive :=
  match c.toNat with
  | 0 => some .keep
  | 1 => some .renew
  | 2 => some .retire
  | _ => none

/-- Window code of a directive (R114). -/
def Directive.code : Directive → Byte
  | .keep => 0
  | .renew => 1
  | .retire => 2

/-- Host code of a return policy (R55). -/
def Policy.code : Policy → Nat
  | .fixed => 0
  | .swap => 1

/-- The policy a code names (R55, R71). -/
def policyOfCode (c : Byte) : Option Policy :=
  match c.toNat with
  | 0 => some .fixed
  | 1 => some .swap
  | _ => none

/-- OPSTATE code (R114); OFF is not served, so its code is never read. -/
def OpState.code : OpState → Nat
  | .off => 0
  | .settling => 1
  | .scanning => 2
  | .running => 3
  | .frozen => 4

/-- RESULT code (R117). -/
def Result.code : Result → Nat
  | .ok => 0
  | .notFetched => 1
  | .isVacant => 2
  | .notVacant => 3
  | .range => 4
  | .rankTaken => 5
  | .pocketConflict => 6
  | .spindleTaken => 7
  | .locked => 8
  | .stale => 9
  | .inMachine => 10
  | .frozen => 11
  | .noExchange => 12
  | .noFault => 13
  | .notFound => 14
  | .unknownCommand => 15

/-- Spindle state code (R61). -/
def Spindle.code : Spindle → Nat
  | .empty => 0
  | .holds _ => 1
  | .exchanging => 2
  | .unknown => 3

/-- Link fault code (R96). -/
def LinkFault.code : LinkFault → Nat
  | .none => 0
  | .strobeWhileBusy => 1
  | .takeWithoutAnswer => 2

/-- Suspicion cause code (R74). -/
def Suspicion.code : Suspicion → Nat
  | .timeout => 1
  | .reset => 2

end Sys2Proof.Machine
end

