-- ==== Sys2Proof/Machine/Ops.lean ====
section
/-! DEFINITION. The shared operations over the image, the commit queue and the exchange context: reading and
changing a slot, the handing of R152, and the claim of R3 that every persistent change goes through. -/

namespace Sys2Proof.Machine

/-- The slot numbers in increasing order. -/
def slots : List Slot := List.finRange 128

/-! ### The image -/

/-- Slot `k` of the image (R1). -/
def State.slot (s : State) (k : Slot) : SlotState := s.image[k]

/-- The persistent fields of slot `k` in the image (R1, R4). -/
def State.record (s : State) (k : Slot) : Record := (s.slot k).fields

/-- The state with slot `k` of the image replaced. -/
def State.setSlot (s : State) (k : Slot) (x : SlotState) : State := { s with image := s.image.set k x }

/-- The slot holds a tool (R5). -/
def Record.occupied (r : Record) : Bool := r.condition != .vacant

/-- The retired conditions WORN and DAMAGED (R5). -/
def Condition.retired : Condition → Bool
  | .worn => true
  | .damaged => true
  | _ => false

/-- The conditions whose entry sets ATTN (R14). -/
def Condition.callsAttention : Condition → Bool
  | .nearEnd => true
  | .worn => true
  | .damaged => true
  | _ => false

/-- The location kind is UNKNOWN (R10). -/
def Location.isUnknown : Location → Bool
  | .unknown _ => true
  | _ => false

/-- The entries at which a claim sets ATTN: the condition becomes NEAR_END, WORN or DAMAGED from another one, or the
location becomes UNKNOWN from another kind (R14). -/
def entersAttention (before after : Record) : Bool :=
  (after.condition != before.condition && after.condition.callsAttention) ||
    (after.location.isUnknown && !before.location.isUnknown)

/-! ### The commit queue -/

/-- The entry stands in the queue (R151). -/
def CommitQueue.holds (q : CommitQueue) (e : Entry) : Bool := q.urgent.contains e || q.normal.contains e

/-- The queue without the entry (R156, R161). -/
def CommitQueue.remove (q : CommitQueue) (e : Entry) : CommitQueue :=
  { urgent := q.urgent.filter (fun x => x != e), normal := q.normal.filter (fun x => x != e) }

/-- The number of entries, CFG included (R116). -/
def CommitQueue.depth (q : CommitQueue) : Nat := q.urgent.length + q.normal.length

/-- The head of the queue: the first urgent entry, or the first normal entry when there is none (R151). -/
def CommitQueue.head (q : CommitQueue) : Option (Entry × CommitClass) :=
  match q.urgent, q.normal with
  | e :: _, _ => some (e, .urgent)
  | [], e :: _ => some (e, .normal)
  | [], [] => none

/-- The queue after its head has been taken out (R153). -/
def CommitQueue.tail (q : CommitQueue) : CommitQueue :=
  match q.urgent, q.normal with
  | _ :: u, n => { urgent := u, normal := n }
  | [], _ :: n => { urgent := [], normal := n }
  | [], [] => { urgent := [], normal := [] }

/-- The placing of a handing (R152). An entry in the urgent part keeps its place; an entry in the normal part keeps
its place unless the urgent class is asked, which moves it to the tail of the urgent part; any other entry, in flight
or not, is appended at the tail of the part the class asks. -/
def CommitQueue.hand (q : CommitQueue) (e : Entry) : CommitClass → CommitQueue
  | .urgent =>
    if q.urgent.contains e then q
    else { urgent := q.urgent ++ [e], normal := q.normal.filter (fun x => x != e) }
  | .normal => if q.holds e then q else { q with normal := q.normal ++ [e] }

/-- The subject of a flight (R153). -/
def Snapshot.entry : Snapshot → Entry
  | .slot k _ _ => .slot k
  | .cfg _ => .cfg

/-- The entry is the subject of the commit in flight (R151). -/
def State.inFlight (s : State) (e : Entry) : Bool :=
  match s.flight with
  | some f => f.content.entry == e
  | none => false

/-- The queue holds no entry and no commit is in flight (R115, R131). -/
def State.drained (s : State) : Bool := s.queue.urgent.isEmpty && s.queue.normal.isEmpty && s.flight.isNone

/-! ### Claims -/

/-- A claim that gives slot `k` the persistent fields `new` with the commit class `cls`. When a field changes, the
stamp advances once, DIRTY is set, the slot is handed to the Commit Engine, and ATTN is set at the entries of R14;
when none changes, nothing does (R3, R14, R17). -/
def State.claim (s : State) (k : Slot) (new : Record) (cls : CommitClass) : State :=
  if new = s.record k then s
  else
    { s with
      image := s.image.set k
        { fields := new
          attn := (s.slot k).attn || entersAttention (s.record k) new
          dirty := true
          storeFault := (s.slot k).storeFault
          stamp := (s.slot k).stamp + 1 }
      queue := s.queue.hand (.slot k) cls }

/-- A claim that changes the location alone, urgent: the class of every exchange claim (R3, R78, R83, R86, R90). -/
def State.relocate (s : State) (k : Slot) (loc : Location) : State :=
  s.claim k { s.record k with location := loc } .urgent

/-- ATTN of slot `k` becomes `v`; volatile state alone (R3, R139). -/
def State.setAttn (s : State) (k : Slot) (v : Bool) : State := s.setSlot k { s.slot k with attn := v }

/-! ### The exchange context -/

/-- The open exchange, in OFFERED, RESERVED or SUSPECT (R75). -/
def Exchange.open? : Exchange → Option OpenExchange
  | .idle => none
  | .offered x => some x
  | .reserved x _ => some x
  | .suspect x _ => some x

/-- The incoming slot with its source pocket: kind CALL (R74). -/
def Movement.incoming : Movement → Option (Slot × Nat)
  | .call k p _ => some (k, p)
  | .putaway _ _ => none

/-- The outgoing slot with its return pocket, when there is one (R74). -/
def Movement.outgoing : Movement → Option (Slot × Nat)
  | .call _ _ o => o
  | .putaway k p => some (k, p)

/-- The named slots, the incoming slot first: the order of the handings (R78, R83, R86, R90, R93). -/
def Movement.named (m : Movement) : List Slot :=
  (m.incoming.toList ++ m.outgoing.toList).map Prod.fst

/-- The slot is named by the exchange while it is OFFERED, RESERVED or SUSPECT (R94). -/
def Exchange.names (e : Exchange) (k : Slot) : Bool :=
  match e.open? with
  | some x => x.movement.named.contains k
  | none => false

/-- Exchange state code (R74). -/
def Exchange.code : Exchange → Nat
  | .idle => 0
  | .offered _ => 1
  | .reserved _ _ => 2
  | .suspect _ _ => 3

/-- The applied pocket count; 0 while no configuration is loaded, so that no pocket number is in the ring (R60, R73;
log 18). -/
def State.pockets (s : State) : Nat :=
  match s.config with
  | some c => c.pockets
  | none => 0

/-- The applied exchange timeout, read when the timer starts (R55, R84). -/
def State.timeout (s : State) : Nat :=
  match s.config with
  | some c => c.timeout
  | none => 0

/-- The Host Port serves writes and the link takes edges: the part is not in OFF and /RESET is not held low (R96,
R111, R113, R136). -/
def State.served (s : State) : Bool := s.opState != .off && !s.resetLow

end Sys2Proof.Machine
end

