-- ==== Sys2Proof/Machine/Magazine.lean ====
section
/-! DEFINITION. The Magazine Map, computed from the image and the pocket count: occupants, marks, BLOCKED, the reports
of R60, placement validity and the return-pocket choice (spec/04). -/

namespace Sys2Proof.Machine

/-- The ring neighbour before `p` in a ring of `P` pockets (R55). -/
def ringBefore (P p : Nat) : Nat := if p ≤ 1 then P else p - 1

/-- The ring neighbour after `p` in a ring of `P` pockets (R55). -/
def ringAfter (P p : Nat) : Nat := if P ≤ p then 1 else p + 1

/-- The pockets of the ring from `p` on round to the one before it (R67, R68). -/
def ringFrom (P p : Nat) : List Nat :=
  (List.range' p (P + 1 - p)) ++ List.range' 1 (p - 1)

/-! A view of the magazine disregards the slots in `gone` (R64, R66). -/

/-- The non-vacant slots of the view whose location satisfies `test`. -/
def State.anySlot (s : State) (gone : List Slot) (test : Record → Bool) : Bool :=
  slots.any (fun k => !gone.contains k && (s.record k).occupied && test (s.record k))

/-- The location is POCKET p. -/
def Location.standsIn (l : Location) (p : Nat) : Bool := l == .pocket p

/-- The location is TRANSIT_IN(p) or TRANSIT_BACK(p). -/
def Location.reserves (l : Location) (p : Nat) : Bool := l == .transitIn p || l == .transitBack p

/-- The location is UNKNOWN with pocket part p. -/
def Location.doubts (l : Location) (p : Nat) : Bool := l == .unknown (some p)

/-- Pocket p has an occupant in the view (R56). -/
def State.occupiedIn (s : State) (gone : List Slot) (p : Nat) : Bool :=
  s.anySlot gone (fun r => r.location.standsIn p)

/-- Pocket p carries the RESERVED mark in the view (R57). -/
def State.reservedIn (s : State) (gone : List Slot) (p : Nat) : Bool :=
  s.anySlot gone (fun r => r.location.reserves p)

/-- Pocket p carries the UNKNOWN mark in the view (R58). -/
def State.unknownIn (s : State) (gone : List Slot) (p : Nat) : Bool :=
  s.anySlot gone (fun r => r.location.doubts p)

/-- Pocket p has an occupant or a mark in the view: what R64 asks to be absent. -/
def State.markedIn (s : State) (gone : List Slot) (p : Nat) : Bool :=
  s.occupiedIn gone p || s.reservedIn gone p || s.unknownIn gone p

/-- Pocket p has a LARGE occupant, is reserved to receive a LARGE tool or is marked for a LARGE tool (R57–R59). -/
def State.largeAt (s : State) (gone : List Slot) (p : Nat) : Bool :=
  s.anySlot gone (fun r =>
    r.size == .large && (r.location.standsIn p || r.location.reserves p || r.location.doubts p))

/-- Pocket p is BLOCKED in the view (R59). -/
def State.blockedIn (s : State) (gone : List Slot) (p : Nat) : Bool :=
  !s.occupiedIn gone p &&
    (s.largeAt gone (ringBefore s.pockets p) || s.largeAt gone (ringAfter s.pockets p))

/-- Placement validity: a tool of the size may be placed into p in the view (R64). -/
def State.placeable (s : State) (gone : List Slot) (size : Size) (p : Nat) : Bool :=
  decide (1 ≤ p) && decide (p ≤ s.pockets) &&
    !s.markedIn gone p && !s.blockedIn gone p &&
    (size == .normal ||
      (!s.markedIn gone (ringBefore s.pockets p) && !s.markedIn gone (ringAfter s.pockets p)))

/-- The occupant of pocket p (R56). -/
def State.occupant (s : State) (p : Nat) : Option Slot :=
  slots.find? (fun k => (s.record k).occupied && (s.record k).location.standsIn p)

/-- The reported state code and occupant register of a pocket (R60). -/
def State.pocketReport (s : State) (p : Nat) : Nat × Nat :=
  if p = 0 ∨ s.pockets < p then (0, 255)
  else
    match s.occupant p with
    | some k => (5, k.val)
    | none =>
      if s.reservedIn [] p then (4, 255)
      else if s.unknownIn [] p then (3, 255)
      else if s.blockedIn [] p then (2, 255)
      else (1, 255)

/-! ### The return-pocket choice -/

/-- The outcome of a return-pocket choice: a pocket, or the first pocket examined, which NO_ROOM carries (R69). -/
inductive ReturnChoice where
  | chosen (p : Nat)
  | noRoom (first : Nat)
deriving DecidableEq, Repr

/-- The first of the candidates into which the size may be placed, in the view. -/
def State.firstPlaceable (s : State) (gone : List Slot) (size : Size) (candidates : List Nat) : Option Nat :=
  candidates.find? (fun p => s.placeable gone size p)

/-- The applied return policy (R55); FIXED while no configuration is loaded, which no decision meets (log 25). -/
def State.policy (s : State) : Policy :=
  match s.config with
  | some c => c.policy
  | none => .fixed

/-- The return pocket of outgoing slot `k` for a CALL with incoming slot `i` from source pocket `src`, judged in the
view without both (R66, R67, R69). -/
def State.returnForCall (s : State) (k i : Slot) (src : Nat) : ReturnChoice :=
  match s.policy with
  | .fixed =>
    if (s.record k).home ≠ 0 ∧ s.placeable [k, i] (s.record k).size (s.record k).home then
      .chosen (s.record k).home
    else .noRoom (s.record k).home
  | .swap =>
    match s.firstPlaceable [k, i] (s.record k).size (ringFrom s.pockets src) with
    | some p => .chosen p
    | none => .noRoom src

/-- The return pocket of slot `k` for a PUTAWAY, against the map as it stands (R68, R69). -/
def State.returnForPutaway (s : State) (k : Slot) : ReturnChoice :=
  match s.policy with
  | .fixed =>
    if (s.record k).home ≠ 0 ∧ s.placeable [k] (s.record k).size (s.record k).home then
      .chosen (s.record k).home
    else .noRoom (s.record k).home
  | .swap =>
    match s.firstPlaceable [k] (s.record k).size (ringFrom s.pockets (max 1 (s.record k).home)) with
    | some p => .chosen p
    | none => .noRoom (max 1 (s.record k).home)

/-- The first slot with location SPINDLE. -/
def State.spindleSlot (s : State) : Option Slot :=
  slots.find? (fun k => (s.record k).occupied && (s.record k).location == .spindle)

end Sys2Proof.Machine
end

