-- ==== Sys2Proof/Machine/Selection.lean ====
section
/-! DEFINITION. The Call Index, computed from the image, and the choice that CALL and PROBE make from it (spec/03). -/

namespace Sys2Proof.Machine

/-- Slot `j` stands before slot `k` in a list of the Call Index: lower rank, or equal rank and lower slot number
(R34, R37). -/
def State.indexBefore (s : State) (j k : Slot) : Bool :=
  decide ((s.record j).rank < (s.record k).rank) ||
    (decide ((s.record j).rank = (s.record k).rank) && decide (j < k))

/-- Slot `k` inserted into a list at the position R37 gives it. -/
def State.indexInsert (s : State) (k : Slot) : List Slot → List Slot
  | [] => [k]
  | j :: js => if s.indexBefore j k then j :: s.indexInsert k js else k :: j :: js

/-- The sister group of tool number `t`: every non-vacant slot with that number, in increasing rank, equal ranks by
slot number (R34, R36). -/
def State.callIndex (s : State) (t : Nat) : List Slot :=
  (slots.filter (fun k => (s.record k).occupied && decide ((s.record k).tool = t))).foldr s.indexInsert []

/-- The conditions FRESH, USED and NEAR_END (R39). -/
def Condition.usable : Condition → Bool
  | .fresh => true
  | .used => true
  | .nearEnd => true
  | _ => false

/-- The location kind is POCKET or SPINDLE (R39). -/
def Location.reachable : Location → Bool
  | .pocket _ => true
  | .spindle => true
  | _ => false

/-- The selectable predicate (R39). -/
def Record.selectable (r : Record) : Bool := r.condition.usable && !r.hold && r.location.reachable

/-- A waiting sister: usable but not selectable (R40). -/
def Record.isWaiting (r : Record) : Bool := r.condition.usable && !r.selectable

/-- A spindle choice (R40). -/
def Record.isSpindleChoice (r : Record) : Bool := r.selectable && r.location == .spindle

/-- The pocket of a pocket candidate (R40). -/
def Record.candidatePocket (r : Record) : Option Nat :=
  if r.selectable then
    match r.location with
    | .pocket p => some p
    | _ => none
  else none

/-- The outcomes of steps 5 to 7 of the CALL decision (R45–R47). -/
inductive Choice where
  | unknownTool
  | inSpindle (rank : Nat)
  | candidate (k : Slot) (pocket : Nat)
  | exhausted (members : Nat)
  | unavailable (rank : Nat)
deriving DecidableEq, Repr

/-- Steps 5 to 7 of the CALL decision for tool number `t`, which PROBE shares (R40, R45–R47, R50). -/
def State.choose (s : State) (t : Nat) : Choice :=
  let group := s.callIndex t
  if group.isEmpty then .unknownTool
  else
    match group.find? (fun k => (s.record k).isSpindleChoice) with
    | some k => .inSpindle (s.record k).rank
    | none =>
      match group.findSome? (fun k => (s.record k).candidatePocket.map (fun p => (k, p))) with
      | some (k, p) => .candidate k p
      | none =>
        match group.find? (fun k => (s.record k).isWaiting) with
        | some k => .unavailable (s.record k).rank
        | none => .exhausted group.length

end Sys2Proof.Machine
end

