-- ==== Sys2Proof/Machine/Link.lean ====
section
/-! DEFINITION. The Changer Link: its outputs, the edges of its two strobes, the latch with its decode, and the
presentation and taking of answer words (spec/06). -/

namespace Sys2Proof.Machine

/-! ### Outputs -/

/-- RQFULL: high in every phase but IDLE (R96). -/
def State.rqfull (s : State) : Bool := s.opState != .off && s.link.phase != .idle

/-- ANRDY: high while the current word is SHOWN (R96). -/
def State.anrdy (s : State) : Bool :=
  s.opState != .off && s.link.phase == .answering && s.link.status == .shown

/-- The AN lines; low in OFF (R96). -/
def State.anLines (s : State) : LinkWord := if s.opState = .off then 0 else s.link.an

/-! ### Answers -/

/-- A request answered by one decided word, presented at once (R98, R102). -/
def Link.answer (l : Link) (a : Answer) : Link :=
  { l with phase := .answering, answers := [some a], position := 0, status := .shown, leftRunning := false,
           an := a.word }

/-- An opening answer: word 1 decided and presented, word 2 withheld (R79, R102). -/
def Link.answerOpening (l : Link) (a : Answer) : Link :=
  { l with phase := .answering, answers := [some a, none], position := 0, status := .shown, leftRunning := false,
           an := a.word }

/-- A single withheld position: the answer of a DONE or ABANDON that was taken (R102). -/
def Link.withhold (l : Link) : Link :=
  { l with phase := .answering, answers := [none], position := 0, status := .held, leftRunning := false }

/-- The withheld position, which is the last, is filled; when it is current the word is presented in the same step,
otherwise it waits for its position (R105). -/
def Link.fill (l : Link) (a : Answer) : Link :=
  if l.answers.getLast? = some none then
    if l.position + 1 = l.answers.length then
      { l with answers := l.answers.dropLast ++ [some a], status := .shown, an := a.word }
    else { l with answers := l.answers.dropLast ++ [some a] }
  else l

/-- The trailing edge of /ANTAKE that takes the current word: the next position becomes current and shows its word if
it has been released, or the link returns to IDLE (R104, effects 2 and 3). -/
def Link.takeWord (l : Link) : Link :=
  match l.answers[l.position + 1]? with
  | some (some a) =>
    { l with anMark := false, position := l.position + 1, status := .shown, an := a.word }
  | some none => { l with anMark := false, position := l.position + 1, status := .held }
  | none =>
    { l with anMark := false, phase := .idle, latch := none, answers := [], position := 0, status := .held,
             leftRunning := false }

/-- The link's state replaced. -/
def State.setLink (s : State) (l : Link) : State := { s with link := l }

/-- The request in hand is answered by one decided word. -/
def State.answer (s : State) (a : Answer) : State := s.setLink (s.link.answer a)

/-! ### Lost answers -/

/-- The mark of a lost answer once a supply fall or /RESET has come (R112): the request in hand, when it has been decided
and its words have not all been taken, which is the phase ANSWERING (R96); otherwise the mark that stands (log 28). -/
def State.lostMark (s : State) : Option LinkWord := if s.link.phase = .answering then s.link.latch else s.lostAnswer

/-! ### Edges -/

/-- The LINK cause goes pending with a link fault kind (R108, R109, R110). -/
def State.linkFault (s : State) (f : LinkFault) : State :=
  { s with link := { s.link with fault := f }
           host := { s.host with causes := { s.host.causes with link := true } } }

/-- A leading edge of /RQSTB, judged against the phase (R99, R108). In RECEIVING it cannot occur (log 7). -/
def State.rqstbLeading (s : State) : State :=
  if s.served then
    match s.link.phase with
    | .idle => s.setLink { s.link with rqMark := true, phase := .receiving }
    | .receiving => s
    | .handedOn => s.linkFault .strobeWhileBusy
    | .answering => s.linkFault .strobeWhileBusy
  else s

/-- A leading edge of /ANTAKE, judged against the presentation status (R103, R109). During TAKING it cannot occur
(log 7). -/
def State.antakeLeading (s : State) : State :=
  if s.served then
    match s.link.phase, s.link.status with
    | .answering, .shown => s.setLink { s.link with anMark := true, status := .taking }
    | .answering, .taking => s
    | _, _ => s.linkFault .takeWithoutAnswer
  else s

/-- The link's own answer to a word latched while the part is not RUNNING (R98 test 1, R107); none in RUNNING. -/
def OpState.linkAnswer : OpState → Option Answer
  | .off => none
  | .settling => some (.notReady 1)
  | .scanning => some (.notReady 2)
  | .running => none
  | .frozen => some .powerLow

/-- The command that a trailing edge of /RQSTB is with a word on RQ15–RQ0 (R97, R98, R100); `take` says when its block
takes it (log 3). -/
def requestCommand (w : LinkWord) (take : Timing) : Instr :=
  let o := requestOperand w
  match (requestKind w).toNat with
  | 1 => .call o take
  | 2 => .done o
  | 3 => .abandon o
  | 4 => .charge o take
  | 5 => .damage o take
  | 6 => .putaway o take
  | 7 => .probe o take
  | _ => .unknownRequest (requestKind w) o

/-- The trailing edge of /RQSTB with a word on RQ15–RQ0: latched when the acceptance mark is set, decoded in the same
step (R98, R100), and, when it passes, handed on to its block, which takes it now by `decision` or later (R101). -/
def State.latchRequest (s : State) (kind : BitVec 4) (operand : BitVec 12) (take : Timing)
    (decision : State → State) : State :=
  if s.served && s.link.rqMark then
    let l : Link := { s.link with rqMark := false, latch := some (requestWord kind operand) }
    match s.opState.linkAnswer with
    | some a => s.setLink (l.answer a)
    | none =>
      if requestAccepted kind operand then
        let handed := s.setLink { l with phase := .handedOn, leftRunning := false }
        match take with
        | .inStep => decision handed
        | .later => handed
      else s.setLink (l.answer (.badRequest kind.toNat))
  else s

end Sys2Proof.Machine
end

