-- ==== Sys2Proof/Machine/Exchange.lean ====
section
/-! DEFINITION. The exchange transaction: open, close, revert, suspicion, the confirmation record and its release, and
the decisions of CALL, PUTAWAY, DONE and ABANDON; with them the decisions of CHARGE, DAMAGE and PROBE, which the same
link hands on (spec/05; spec/02, R19–R26; spec/03, R41–R52). -/

namespace Sys2Proof.Machine

/-! ### The confirmation record -/

/-- The open, DONE or ABANDON sets the confirm-from stamp of slot `k` to the stamp the slot took in that claim (R158),
and a flight of `k` is marked as having seen it (R156; log 14). -/
def State.setConfirmFrom (s : State) (k : Slot) : State :=
  { s with
    confirmFrom := s.confirmFrom.set k (some (s.slot k).stamp)
    flight := s.flight.map (fun f => if f.content.entry = .slot k then { f with confirmSet := true } else f) }

/-- A confirmation record is created on the named slots, none of them marked (R78, R80, R86, R87, R158). -/
def State.awaitCommits (s : State) (m : Movement) (w : Withheld) : State :=
  let t := m.named.foldl State.setConfirmFrom s
  { t with confirmation := some { withheld := w, waiting := m.named.map (fun k => (k, false)), failed := none } }

/-- The slot stands on the waiting list with its mark not set (R81). -/
def Confirmation.awaits (c : Confirmation) (k : Slot) : Bool := c.waiting.contains (k, false)

/-- The mark of slot `k` is set (R81). -/
def Confirmation.markSlot (c : Confirmation) (k : Slot) : Confirmation :=
  { c with waiting := c.waiting.map (fun e => if e.1 = k then (k, true) else e) }

/-- The first failure notice decides the faulting slot (R82). -/
def Confirmation.noteFailure (c : Confirmation) (k : Slot) : Confirmation :=
  match c.failed with
  | some _ => c
  | none => { c with failed := some k }

/-- A notice of the Commit Engine, treated as R81 states. `completed` tells a completion from a failure, `after` that
the flight's snapshot was taken after the claim that queued the slot for the record (R158). -/
def State.notify (s : State) (k : Slot) (completed after : Bool) : State :=
  match s.confirmation with
  | some c =>
    if c.awaits k && after then
      { s with confirmation := some (if completed then c.markSlot k else c.noteFailure k) }
    else s
  | none => s

/-! ### Open, close, revert, suspicion -/

/-- The tag that follows a tag: 15 is followed by 1 (R76). -/
def tagAfter (t : Nat) : Nat := if t = 15 then 1 else t + 1

/-- The incoming slot takes the location that `f` makes of its source pocket (R78, R83, R86, R90). -/
def State.moveIncoming (s : State) (m : Movement) (f : Nat → Location) : State :=
  match m.incoming with
  | some (k, p) => s.relocate k (f p)
  | none => s

/-- The outgoing slot takes the location that `f` makes of its return pocket (R78, R83, R90). -/
def State.moveOutgoing (s : State) (m : Movement) (f : Nat → Location) : State :=
  match m.outgoing with
  | some (k, p) => s.relocate k (f p)
  | none => s

/-- The outgoing slot takes location POCKET with the return pocket, which becomes its home pocket (R70, R86). -/
def State.landOutgoing (s : State) (m : Movement) : State :=
  match m.outgoing with
  | some (k, p) => s.claim k { s.record k with location := .pocket p, home := p } .urgent
  | none => s

/-- The spindle after a completed movement: HOLDS(incoming), or EMPTY for a PUTAWAY (R61, R86). -/
def Movement.spindleAfterMove (m : Movement) : Spindle :=
  match m.incoming with
  | some (k, _) => .holds k
  | none => .empty

/-- The spindle after a revert: HOLDS(outgoing), or EMPTY when there was none (R61, R83). -/
def Movement.spindleAfterRevert (m : Movement) : Spindle :=
  match m.outgoing with
  | some (k, _) => .holds k
  | none => .empty

/-- The first answer word of an open (R79): ISSUE, or ISSUE_MEASURE when the incoming slot has MEASURE set, or STOW. -/
def State.openingWord (s : State) (m : Movement) : Answer :=
  match m with
  | .call k p _ => if (s.record k).measure then .issueMeasure p else .issue p
  | .putaway _ p => .stow p

/-- The return pocket of the movement, 0 when there is no outgoing slot (R74, R79). -/
def Movement.returnPocket (m : Movement) : Nat :=
  match m.outgoing with
  | some (_, p) => p
  | none => 0

/-- The open of an exchange (R78, R79): one claim. -/
def State.openExchange (s : State) (m : Movement) : State :=
  let t := (s.moveIncoming m .transitIn).moveOutgoing m .transitBack
  let u : State :=
    { t with spindle := .exchanging, exchange := .offered { tag := s.nextTag, movement := m },
             nextTag := tagAfter s.nextTag, link := s.link.answerOpening (s.openingWord m) }
  u.awaitCommits m (.tag s.nextTag m.returnPocket)

/-- The effects of a completed movement, steps 2 to 6 of R86, which RESOLVE_MOVED shares (R93). -/
def State.completeMove (s : State) (m : Movement) : State :=
  let t := (s.moveIncoming m (fun _ => .spindle)).landOutgoing m
  { t with spindle := m.spindleAfterMove, exchange := .idle }

/-- The revert (R83), the effect of ABANDON, of a store fault while OFFERED, of /RESET while OFFERED and of
RESOLVE_NOT_MOVED (R93). -/
def State.revert (s : State) (m : Movement) : State :=
  let t := (s.moveIncoming m .pocket).moveOutgoing m (fun _ => .spindle)
  { t with spindle := m.spindleAfterRevert, exchange := .idle }

/-- The suspicion of a RESERVED exchange (R90), by timer expiry or by /RESET (R92). ATTN is set by the entry into
location UNKNOWN (R14). -/
def State.suspectExchange (s : State) (x : OpenExchange) (cause : Suspicion) : State :=
  let t := (s.moveIncoming x.movement (fun p => .unknown (some p))).moveOutgoing x.movement
    (fun p => .unknown (some p))
  { t with spindle := .unknown, exchange := .suspect x cause
           host := { t.host with causes := { t.host.causes with suspect := true } } }

/-- The answer that replaces a withheld one when slot `k` faults, and the revert that a TAG's store fault makes (R82,
R89). -/
def State.replaceAnswer (s : State) (w : Withheld) (k : Slot) : State :=
  match w with
  | .tag _ _ =>
    let t : State := match s.exchange with
      | .offered x => s.revert x.movement
      | _ => s
    { t with link := t.link.fill (.storeFault k.val), confirmation := none }
  | .doneOk tag => { s with link := s.link.fill (.doneUnsaved tag), confirmation := none }
  | .abandoned tag => { s with link := s.link.fill (.doneUnsaved tag), confirmation := none }

/-- A confirmation record that can end ends, in RUNNING: by the store fault it has been told of, or because every slot
on its list is marked; its answer goes to the link (R80, R82, R89, R105). Any other record goes on waiting, and so does
every record outside RUNNING: its position stays HELD through FROZEN and SETTLING (R80, R95, R105, R107; log 4). -/
def State.releaseRecord (s : State) : State :=
  if s.opState = .running then
    match s.confirmation with
    | none => s
    | some c =>
      match c.failed with
      | some k => s.replaceAnswer c.withheld k
      | none =>
        if c.waiting.all (fun e => e.2) then
          { s with link := s.link.fill c.withheld.released, confirmation := none }
        else s
  else s

/-! ### The decisions of the Exchange Controller -/

/-- Step 3 of CALL and PUTAWAY: the answer while an exchange is open (R43, R77). -/
def Exchange.refusal : Exchange → Option Answer
  | .idle => none
  | .offered x => some (.exchangeOpen x.tag)
  | .reserved x _ => some (.exchangeOpen x.tag)
  | .suspect x _ => some (.suspect x.tag)

/-- Step 8 of the CALL decision: the outgoing slot with its return pocket, none when the spindle is EMPTY, or the
pocket that NO_ROOM carries (R48). -/
def State.outgoingForCall (s : State) (incoming : Slot) (source : Nat) : Except Nat (Option (Slot × Nat)) :=
  match s.spindle with
  | .holds k =>
    match s.returnForCall k incoming source with
    | .chosen r => .ok (some (k, r))
    | .noRoom p => .error p
  | _ => .ok none

/-- Steps 3 to 9 of the CALL decision (R41, R43–R48). -/
def State.decideCall (s : State) (t : Nat) : State :=
  match s.exchange.refusal with
  | some a => s.answer a
  | none =>
    if s.spindle = .unknown then s.answer .spindleUnknown
    else
      match s.choose t with
      | .unknownTool => s.answer (.unknownTool t)
      | .inSpindle r => s.answer (.inSpindle r)
      | .exhausted n => s.answer (.exhausted n)
      | .unavailable r => s.answer (.unavailable r)
      | .candidate k p =>
        match s.outgoingForCall k p with
        | .error first => s.answer (.noRoom first)
        | .ok o => s.openExchange (.call k p o)

/-- Steps 3 to 7 of the PUTAWAY decision (R77). Step 3 has passed when the spindle is judged, so EXCHANGING is not
met (log 25). -/
def State.decidePutaway (s : State) : State :=
  match s.exchange.refusal with
  | some a => s.answer a
  | none =>
    match s.spindle with
    | .empty => s.answer .spindleEmpty
    | .unknown => s.answer .spindleUnknown
    | .exchanging => s
    | .holds k =>
      match s.returnForPutaway k with
      | .noRoom first => s.answer (.noRoom first)
      | .chosen r => s.openExchange (.putaway k r)

/-- The answer to a DONE or ABANDON that does not find a RESERVED exchange with its tag (R88); none when it does, and
none in OFFERED, which such a request cannot reach (log 17). -/
def Exchange.tagRefusal (e : Exchange) (tag : Nat) : Option Answer :=
  match e with
  | .idle => some .noExchange
  | .offered _ => none
  | .reserved x _ => if x.tag = tag then none else some (.badTag x.tag)
  | .suspect x _ => if x.tag = tag then some (.tooLate x.tag) else some (.badTag x.tag)

/-- The DONE decision (R86, R88). -/
def State.decideDone (s : State) (tag : Nat) : State :=
  match s.exchange.tagRefusal tag with
  | some a => s.answer a
  | none =>
    match s.exchange with
    | .reserved x _ =>
      let t := (s.completeMove x.movement).awaitCommits x.movement (.doneOk tag)
      t.setLink t.link.withhold
    | _ => s

/-- The ABANDON decision (R87, R88). -/
def State.decideAbandon (s : State) (tag : Nat) : State :=
  match s.exchange.tagRefusal tag with
  | some a => s.answer a
  | none =>
    match s.exchange with
    | .reserved x _ =>
      let t := (s.revert x.movement).awaitCommits x.movement (.abandoned tag)
      t.setLink t.link.withhold
    | _ => s

/-! ### Life accounting -/

/-- The condition after the arithmetic of a charge, by the first case that applies (R21). -/
def chargedCondition (mode : LifeMode) (remaining warn : Nat) : Condition :=
  if mode ≠ .uncounted ∧ remaining = 0 then .worn
  else if 0 < warn ∧ remaining ≤ warn then .nearEnd
  else .used

/-- The charged total after a charge of `n` units, held at its maximum (R20, R23). -/
def chargedTotal (charged n : Nat) : Nat := min (charged + n) Config.chargedMax

/-- The fields after a charge of `n` units (R20, R21, R23, R24): a charge of 0 changes nothing, a retired slot takes
the charged total alone, and any other slot takes the arithmetic and the condition. -/
def Record.afterCharge (r : Record) (n : Nat) : Record :=
  if n = 0 then r
  else if r.condition.retired then { r with charged := chargedTotal r.charged n }
  else
    let left := if r.mode = .uncounted then r.remaining else r.remaining - n
    { r with charged := chargedTotal r.charged n, remaining := left, condition := chargedCondition r.mode left r.warn }

/-- The class of a charge: urgent when it made the slot WORN (R25). -/
def chargeClass (before after : Record) : CommitClass :=
  if after.condition = .worn ∧ before.condition ≠ .worn then .urgent else .normal

/-- The value that reports remaining life: at most 2047, and 2047 under NONE (R22). -/
def Record.reportedLife (r : Record) : Nat :=
  if r.mode = .uncounted then Config.valueMax else min r.remaining Config.valueMax

/-- The answer to an applied charge, by the condition after it (R22, R23). -/
def Record.chargeAnswer (r : Record) : Answer :=
  match r.condition with
  | .nearEnd => .chargedNearEnd r.reportedLife
  | .worn => .chargedWorn 4
  | .damaged => .chargedWorn 5
  | _ => .charged r.reportedLife

/-- The CHARGE decision (R19): applied to the slot in the spindle, or refused by the spindle state. -/
def State.decideCharge (s : State) (n : Nat) : State :=
  match s.spindle with
  | .empty => s.answer .spindleEmpty
  | .unknown => s.answer .spindleUnknown
  | .exchanging => s.answer .busyExchange
  | .holds k =>
    let new := (s.record k).afterCharge n
    (s.claim k new (chargeClass (s.record k) new)).answer new.chargeAnswer

/-- The DAMAGE decision (R26). -/
def State.decideDamage (s : State) : State :=
  match s.spindle with
  | .empty => s.answer .spindleEmpty
  | .unknown => s.answer .spindleUnknown
  | .exchanging => s.answer .busyExchange
  | .holds k =>
    (s.claim k { s.record k with condition := .damaged } .urgent).answer (.damageNoted (s.record k).tool)

/-! ### PROBE -/

/-- The answer to PROBE 0 (R52). -/
def State.probeSpindle (s : State) : Answer :=
  match s.spindle with
  | .holds k => .spindleHolds (s.record k).tool
  | .empty => .spindleEmpty
  | .unknown => .spindleUnknown
  | .exchanging => .busyExchange

/-- The answer to PROBE of a tool number, by steps 4 to 7 (R50, R51). -/
def State.probeTool (s : State) (t : Nat) : Answer :=
  if s.spindle = .unknown then .spindleUnknown
  else
    match s.choose t with
    | .unknownTool => .unknownTool t
    | .inSpindle _ => .selectable 0
    | .candidate _ p => .selectable p
    | .exhausted n => .exhausted n
    | .unavailable r => .unavailable r

/-- The PROBE decision: an answer and no change of state (R50, R52). -/
def State.decideProbe (s : State) (t : Nat) : State :=
  s.answer (if t = 0 then s.probeSpindle else s.probeTool t)

/-! ### The hand-over by kind -/

/-- The block that takes a request of the kind decides it (R100). Kinds 0 and 8 to 15 are never handed on. -/
def State.decideRequest (s : State) (kind : BitVec 4) (operand : BitVec 12) : State :=
  match kind.toNat with
  | 1 => s.decideCall operand.toNat
  | 2 => s.decideDone operand.toNat
  | 3 => s.decideAbandon operand.toNat
  | 4 => s.decideCharge operand.toNat
  | 5 => s.decideDamage
  | 6 => s.decidePutaway
  | 7 => s.decideProbe operand.toNat
  | _ => s

end Sys2Proof.Machine
end

