-- ==== Sys2Proof/Machine/Flags.lean ====
section
/-! DEFINITION. The per-slot flags and what is computed from them: the flag space, LOWEST_ATTN, the interrupt causes
and INT (spec/08), and the STATUS bits (spec/07, R115). -/

namespace Sys2Proof.Machine

/-! ### The flag space -/

/-- The four flags of the flag space; A9–A8 codes 0 to 3 (R135). -/
inductive FlagName where
  | hold | measure | attn | dirty
deriving DecidableEq, Repr

/-- The flag that A9–A8 name (R135). -/
def flagOfCode (c : BitVec 2) : FlagName :=
  match c.toNat with
  | 0 => .hold
  | 1 => .measure
  | 2 => .attn
  | _ => .dirty

/-- The flag of slot `k` as a flag-space read returns it on D7: 0 for every flag of a vacant slot
(R13, R137). DIRTY reads the stored bit (log 13). -/
def State.flag (s : State) (f : FlagName) (k : Slot) : Bool :=
  (s.record k).occupied &&
    match f with
    | .hold => (s.record k).hold
    | .measure => (s.record k).measure
    | .attn => (s.slot k).attn
    | .dirty => (s.slot k).dirty

/-- The flag that a flag-space address names, A9–A8 (R135). -/
def flagNamed (address : BitVec 10) : FlagName := flagOfCode (address.extractLsb' 8 2)

/-- The slot that a flag-space address names, A6–A0 (R135). -/
def slotNamed (address : BitVec 10) : Slot := Fin.ofNat 128 (address.extractLsb' 0 7).toNat

/-- A flag-space read: the address names the flag and the slot, A7 is not decoded; none while the bus is not served
(R135–R137; log 20). -/
def State.readFlag (s : State) (address : BitVec 10) : Option Byte :=
  if s.opState = .off then none
  else some (BitVec.ofBool (s.flag (flagNamed address) (slotNamed address)) ++ (0 : BitVec 7))

/-- The command that a flag-space write is: the address names the flag and the slot, A7 at 1 sets and at 0 clears, and
the data lines are not decoded (R135, R136). -/
def flagWrite (address : BitVec 10) : Instr :=
  let k := slotNamed address
  match flagNamed address, address.getLsbD 7 with
  | .hold, true => .holdSet k
  | .hold, false => .holdClear k
  | .measure, true => .measureSet k
  | .measure, false => .measureClear k
  | .attn, true => .attnSet k
  | .attn, false => .attnClear k
  | .dirty, v => .dirtyWrite k v

/-- A clear of HOLD is ignored on slot `k`: a lower-numbered non-vacant slot holds its tool number and rank (R35). -/
def State.repairDuplicate (s : State) (k : Slot) : Bool :=
  slots.any (fun j => decide (j < k) && (s.record j).occupied &&
    decide ((s.record j).tool = (s.record k).tool) && decide ((s.record j).rank = (s.record k).rank))

/-- A flag-space write of HOLD (R138). A write that asks the value the flag has changes nothing, by R3. -/
def State.writeHold (s : State) (k : Slot) (v : Bool) : State :=
  if s.served && s.opState == .running && (s.record k).occupied && (v || !s.repairDuplicate k) then
    s.claim k { s.record k with hold := v } .normal
  else s

/-- A flag-space write of MEASURE (R138). -/
def State.writeMeasure (s : State) (k : Slot) (v : Bool) : State :=
  if s.served && s.opState == .running && (s.record k).occupied then
    s.claim k { s.record k with measure := v } .normal
  else s

/-- A flag-space write of ATTN: a set is ignored on a vacant slot, a clear is taken on every slot (R139). -/
def State.writeAttn (s : State) (k : Slot) (v : Bool) : State :=
  if s.served && (!v || (s.record k).occupied) then s.setAttn k v else s

/-! ### Attention -/

/-- The lowest slot with ATTN set (R141). -/
def State.lowestAttnSlot (s : State) : Option Slot := slots.find? (fun k => (s.slot k).attn)

/-- LOWEST_ATTN: that slot's number, or 255 when no slot has ATTN set (R141). -/
def State.lowestAttn (s : State) : Nat :=
  match s.lowestAttnSlot with
  | some k => k.val
  | none => 255

/-- The level of the ATTENTION cause: some slot, vacant ones included, has ATTN set (R145). -/
def State.attention (s : State) : Bool := slots.any (fun k => (s.slot k).attn)

/-! ### Interrupts -/

/-- INT_PENDING bits 5 to 0 in the order of R142. -/
def State.pendingCauses (s : State) : BitVec 6 :=
  BitVec.ofBool s.host.causes.configFault ++ BitVec.ofBool s.host.causes.supply ++
    BitVec.ofBool s.host.causes.link ++ BitVec.ofBool s.host.causes.suspect ++
    BitVec.ofBool s.attention ++ BitVec.ofBool s.host.causes.command

/-- INT: high while at least one cause is both pending and enabled; low in OFF (R147). -/
def State.intLine (s : State) : Bool := s.opState != .off && (s.pendingCauses &&& s.host.enable) != 0

/-- A write of INT_PENDING: each event cause whose bit is written 1 is cleared; ATTENTION is not changed (R143). -/
def Causes.clearWritten (c : Causes) (data : Byte) : Causes :=
  { command := c.command && !data.getLsbD 0
    suspect := c.suspect && !data.getLsbD 2
    link := c.link && !data.getLsbD 3
    supply := c.supply && !data.getLsbD 4
    configFault := c.configFault && !data.getLsbD 5 }

/-- The event causes replaced. -/
def State.setCauses (s : State) (c : Causes) : State := { s with host := { s.host with causes := c } }

/-- The write of INT_PENDING, taken while the Host Port serves writes (R143). -/
def State.writeIntPending (s : State) (data : Byte) : State :=
  if s.served then s.setCauses (s.host.causes.clearWritten data) else s

/-- The write of INT_ENABLE: bits 5 to 0 are stored (R147). -/
def State.writeIntEnable (s : State) (data : Byte) : State :=
  if s.served then { s with host := { s.host with enable := data.extractLsb' 0 6 } } else s

/-! ### STATUS -/

/-- STATUS (R114, R115): from bit 5 down, CONF_PENDING, QUEUE_EMPTY, CMD_REFUSED, CMD_BUSY, FROZEN, READY. -/
def State.status (s : State) : Byte :=
  Config.statusSpare ++ BitVec.ofBool s.confirmation.isSome ++ BitVec.ofBool s.drained ++
    BitVec.ofBool s.host.cmdRefused ++ BitVec.ofBool s.host.busy ++
    BitVec.ofBool (s.opState == .frozen) ++ BitVec.ofBool (s.opState == .running)

/-- The write of STATUS: bit 3 at 1 clears CMD_REFUSED, the other bits have no effect (R115). -/
def State.writeStatus (s : State) (data : Byte) : State :=
  if s.served && data.getLsbD 3 then { s with host := { s.host with cmdRefused := false } } else s

end Sys2Proof.Machine
end

