-- ==== Sys2Proof/Machine/HostPort.lean ====
section
/-! DEFINITION. The Host Port: register-window reads and writes, the command state, the work record, and the decision
of each command (spec/07; with spec/03 R53, spec/04 R63, R71, R72 and spec/05 R93 for the commands they own). -/

namespace Sys2Proof.Machine

/-! ### Register-window reads -/

/-- WR_STATE code (R114). -/
def WorkState.code : WorkState → Nat
  | .empty => 0
  | .fetched _ _ => 1
  | .new _ => 2

/-- WR_SLOT: the slot of the work record, 255 when EMPTY (R114, R119). -/
def WorkState.slotByte : WorkState → Byte
  | .empty => 255
  | .fetched k _ => BitVec.ofNat 8 k.val
  | .new k => BitVec.ofNat 8 k.val

/-- WR_STAMP: the stamp for FETCHED, 0 otherwise (R119). -/
def WorkState.stamp : WorkState → Stamp
  | .empty => 0
  | .fetched _ t => t
  | .new _ => 0

/-- A number as a byte of the window. -/
def byteNat (n : Nat) : Byte := BitVec.ofNat 8 n

/-- The exchange registers XC_TAG to XC_CAUSE, with the values an absent field reads as (R74, R116). -/
def Exchange.tagByte (e : Exchange) : Byte :=
  match e.open? with
  | some x => byteNat x.tag
  | none => 0

/-- XC_KIND (R74). -/
def Exchange.kindByte (e : Exchange) : Byte :=
  match e.open? with
  | some ⟨_, .call _ _ _⟩ => 1
  | some ⟨_, .putaway _ _⟩ => 2
  | none => 0

/-- XC_IN_SLOT and XC_SOURCE (R74). -/
def Exchange.incomingBytes (e : Exchange) : Byte × Byte :=
  match e.open?.bind (fun x => x.movement.incoming) with
  | some (k, p) => (byteNat k.val, byteNat p)
  | none => (255, 0)

/-- XC_OUT_SLOT and XC_RETURN (R74). -/
def Exchange.outgoingBytes (e : Exchange) : Byte × Byte :=
  match e.open?.bind (fun x => x.movement.outgoing) with
  | some (k, p) => (byteNat k.val, byteNat p)
  | none => (255, 0)

/-- XC_CAUSE (R74). -/
def Exchange.causeByte : Exchange → Byte
  | .suspect _ c => byteNat c.code
  | _ => 0

/-- SPINDLE_SLOT (R61). -/
def Spindle.slotByte : Spindle → Byte
  | .holds k => byteNat k.val
  | _ => 255

/-- The byte at window offset `o`, A5–A0 (R114–R116). Bits 7 to 2 of WR_FLAGS read 0 (log 23). -/
def State.windowByte (s : State) (o : Nat) : Byte :=
  match o with
  | 0x00 => Config.partCode
  | 0x01 => Config.revision
  | 0x02 => byteNat s.opState.code
  | 0x03 => s.status
  | 0x04 => s.host.command
  | 0x05 => byteNat s.host.result.code
  | 0x06 => s.host.argSlot
  | 0x07 => byteOf s.host.argTool 0
  | 0x08 => byteOf s.host.argTool 1
  | 0x09 => s.host.argPos
  | 0x0A => (0 : BitVec 2) ++ s.pendingCauses
  | 0x0B => (0 : BitVec 2) ++ s.host.enable
  | 0x0C => byteNat s.lowestAttn
  | 0x0D => byteNat s.queue.depth
  | 0x0E => byteNat s.link.fault.code
  | 0x0F => byteNat s.spindle.code
  | 0x10 => s.spindle.slotByte
  | 0x11 => s.host.pocketSelect
  | 0x12 => byteNat (s.pocketReport s.host.pocketSelect.toNat).1
  | 0x13 => byteNat (s.pocketReport s.host.pocketSelect.toNat).2
  | 0x14 => byteNat s.exchange.code
  | 0x15 => s.exchange.tagByte
  | 0x16 => s.exchange.kindByte
  | 0x17 => s.exchange.incomingBytes.1
  | 0x18 => s.exchange.incomingBytes.2
  | 0x19 => s.exchange.outgoingBytes.1
  | 0x1A => s.exchange.outgoingBytes.2
  | 0x1B => s.exchange.causeByte
  | 0x1C => s.host.stageP
  | 0x1D => s.host.stagePolicy
  | 0x1E => s.host.stageTimeout
  | 0x20 => byteNat s.host.workState.code
  | 0x21 => s.host.workState.slotByte
  | 0x22 => byteOf s.host.workState.stamp 0
  | 0x23 => byteOf s.host.workState.stamp 1
  | 0x24 => s.host.work.directive
  | 0x25 => s.host.work.condition
  | 0x26 => byteOf s.host.work.tool 0
  | 0x27 => byteOf s.host.work.tool 1
  | 0x28 => s.host.work.rank
  | 0x29 => s.host.work.size
  | 0x2A => s.host.work.mode
  | 0x2B => byteOf s.host.work.limit 0
  | 0x2C => byteOf s.host.work.limit 1
  | 0x2D => byteOf s.host.work.remaining 0
  | 0x2E => byteOf s.host.work.remaining 1
  | 0x2F => byteOf s.host.work.warn 0
  | 0x30 => byteOf s.host.work.warn 1
  | 0x31 => byteOf s.host.work.charged 0
  | 0x32 => byteOf s.host.work.charged 1
  | 0x33 => byteOf s.host.work.charged 2
  | 0x34 => s.host.work.locKind
  | 0x35 => s.host.work.locPocket
  | 0x36 => s.host.work.home
  | 0x37 => (0 : BitVec 6) ++ s.host.work.flags.extractLsb' 0 2
  | 0x38 => s.host.work.indic
  | _ => 0

/-- A register-window read at A9–A0: none in OFF, 0 where any of A9–A6 is set, otherwise the addressed byte (R113;
log 20). -/
def State.readWindow (s : State) (address : BitVec 10) : Option Byte :=
  if s.opState = .off then none
  else if address.extractLsb' 6 4 ≠ 0 then some 0
  else some (s.windowByte (address.extractLsb' 0 6).toNat)

/-! ### Register-window writes -/

/-- A work-record position replaced by the byte written (R114, R115); read-only positions keep their byte. -/
def WorkFields.writeByte (w : WorkFields) (o : Nat) (b : Byte) : WorkFields :=
  match o with
  | 0x24 => { w with directive := b }
  | 0x26 => { w with tool := withLow w.tool b }
  | 0x27 => { w with tool := withHigh w.tool b }
  | 0x28 => { w with rank := b }
  | 0x29 => { w with size := b }
  | 0x2A => { w with mode := b }
  | 0x2B => { w with limit := withLow w.limit b }
  | 0x2C => { w with limit := withHigh w.limit b }
  | 0x2D => { w with remaining := withLow w.remaining b }
  | 0x2E => { w with remaining := withHigh w.remaining b }
  | 0x2F => { w with warn := withLow w.warn b }
  | 0x30 => { w with warn := withHigh w.warn b }
  | 0x34 => { w with locKind := b }
  | 0x35 => { w with locPocket := b }
  | 0x36 => { w with home := b }
  | 0x37 => { w with flags := b }
  | _ => w

/-- An RW position without behaviour of its own replaced by the byte written; every other position is left (R114,
R115). -/
def HostPort.writeByte (h : HostPort) (o : Nat) (b : Byte) : HostPort :=
  match o with
  | 0x06 => { h with argSlot := b }
  | 0x07 => { h with argTool := withLow h.argTool b }
  | 0x08 => { h with argTool := withHigh h.argTool b }
  | 0x09 => { h with argPos := b }
  | 0x11 => { h with pocketSelect := b }
  | 0x1C => { h with stageP := b }
  | 0x1D => { h with stagePolicy := b }
  | 0x1E => { h with stageTimeout := b }
  | _ => { h with work := h.work.writeByte o b }

/-! ### Commands -/

/-- The slot that ARG_SLOT names, none above 127 (R117). -/
def State.argSlot? (s : State) : Option Slot :=
  if h : s.host.argSlot.toNat < 128 then some ⟨s.host.argSlot.toNat, h⟩ else none

/-- A command completes: RESULT takes its code and the COMMAND cause goes pending (R117, R144). -/
def State.complete (s : State) (r : Result) : State :=
  { s with host := { s.host with result := r, causes := { s.host.causes with command := true } } }

/-- A command write (R117): ignored while the Host Port serves no writes; dropped with CMD_REFUSED while BUSY;
otherwise the code is recorded in COMMAND and `body` takes the command (log 27). -/
def State.issue (s : State) (code : Byte) (body : State → State) : State :=
  if s.served then
    if s.host.busy then { s with host := { s.host with cmdRefused := true } }
    else body { s with host := { s.host with command := code } }
  else s

/-- A command that is refused FROZEN outside RUNNING, before any other test (R118). -/
def State.whenRunning (s : State) (body : State → State) : State :=
  if s.opState = .running then body s else s.complete .frozen

/-! #### The work record -/

/-- The directive that FETCH and a successful STORE set (R27). -/
def directiveFor (c : Condition) : Directive := if c = .damaged then .retire else .keep

/-- WR_INDIC as a FETCH gives it: bit 0 ATTN, bit 1 DIRTY, bit 2 STORE_FAULT (R114, R120). -/
def SlotState.indications (x : SlotState) : Byte :=
  Config.indicSpare ++ BitVec.ofBool x.storeFault ++ BitVec.ofBool x.dirty ++ BitVec.ofBool x.attn

/-- WR_FLAGS: bit 0 HOLD, bit 1 MEASURE (R114). -/
def flagsByte (hold measure : Bool) : Byte := (0 : BitVec 6) ++ BitVec.ofBool measure ++ BitVec.ofBool hold

/-- The work-record positions that a FETCH of the slot places (R120, R27). -/
def SlotState.workFields (x : SlotState) : WorkFields :=
  let r := x.fields
  { directive := (directiveFor r.condition).code
    condition := byteNat r.condition.code
    tool := BitVec.ofNat 16 r.tool
    rank := byteNat r.rank
    size := byteNat r.size.code
    mode := byteNat r.mode.code
    limit := BitVec.ofNat 16 r.limit
    remaining := BitVec.ofNat 16 r.remaining
    warn := BitVec.ofNat 16 r.warn
    charged := BitVec.ofNat 24 r.charged
    locKind := byteNat r.location.kindCode
    locPocket := byteNat (r.location.pocketPart.getD 0)
    home := byteNat r.home
    flags := flagsByte r.hold r.measure
    indic := x.indications }

/-- The work-record positions that NEW places (R121). -/
def WorkFields.newDefaults : WorkFields :=
  { directive := Directive.renew.code, condition := 0, tool := 0, rank := 1, size := 0, mode := 0, limit := 1,
    remaining := 1, warn := 0, charged := 0, locKind := 3, locPocket := 0, home := 0, flags := 0, indic := 0 }

/-- The work record becomes FETCHED(k, stamp of k) with the fields of slot `k` (R120, R128). -/
def State.fillWork (s : State) (k : Slot) : State :=
  { s with host := { s.host with workState := .fetched k (s.slot k).stamp, work := (s.slot k).workFields } }

/-- FETCH (R120). -/
def State.takeFetch (s : State) : State :=
  match s.argSlot? with
  | none => s.complete .range
  | some k => if (s.record k).occupied then (s.fillWork k).complete .ok else s.complete .isVacant

/-- NEW in RUNNING (R121). -/
def State.takeNew (s : State) : State :=
  match s.argSlot? with
  | none => s.complete .range
  | some k =>
    if (s.record k).occupied then s.complete .notVacant
    else
      let t : State := { s with host := { s.host with workState := .new k, work := WorkFields.newDefaults } }
      t.complete .ok

/-- DISCARD (R119): the work record becomes EMPTY and its field positions keep their bytes. -/
def State.takeDiscard (s : State) : State :=
  let t : State := { s with host := { s.host with workState := .empty } }
  t.complete .ok

/-! #### STORE -/

/-- The slot of the work record, none when EMPTY (R119). -/
def WorkState.slot? : WorkState → Option Slot
  | .empty => none
  | .fetched k _ => some k
  | .new k => some k

/-- Step 3: the slot has changed since the FETCH, or is no longer VACANT since the NEW (R123). -/
def State.storeStale (s : State) : Bool :=
  match s.host.workState with
  | .empty => false
  | .fetched k t => (s.slot k).stamp != t
  | .new k => (s.record k).occupied

/-- The fields of the work record by their codes, with the normalisations of R124; none where a code names nothing. -/
structure Offered where
  directive : Directive
  tool : Nat
  rank : Nat
  size : Size
  mode : LifeMode
  limit : Nat
  remaining : Nat
  warn : Nat
  location : Location
  home : Nat
  hold : Bool
  measure : Bool
deriving DecidableEq, Repr

/-- The work record read by its codes (R122, R124). -/
def WorkFields.offered (w : WorkFields) : Option Offered := do
  let directive ← directiveOfCode w.directive
  let size ← sizeOfCode w.size
  let mode ← modeOfCode w.mode
  let location ← locationOfCodes w.locKind w.locPocket
  some
    { directive, size, mode, location
      tool := w.tool.toNat
      rank := w.rank.toNat
      limit := w.limit.toNat
      remaining := w.remaining.toNat
      warn := w.warn.toNat
      home := w.home.toNat
      hold := w.flags.getLsbD 0
      measure := w.flags.getLsbD 1 }

/-- The location part of step 4 (R124): POCKET 1 to P, UNKNOWN without a pocket or 1 to P, a TRANSIT location only
where it equals the image's. -/
def locationAccepted (P : Nat) (image offered : Location) : Bool :=
  match offered with
  | .nowhere => false
  | .pocket p => decide (1 ≤ p ∧ p ≤ P)
  | .spindle => true
  | .out => true
  | .transitIn _ => offered == image
  | .transitBack _ => offered == image
  | .unknown none => true
  | .unknown (some p) => decide (1 ≤ p ∧ p ≤ P)

/-- The ranges of step 4 (R32, R124), for a pocket count and the image's location of the slot. -/
def Offered.inRange (o : Offered) (P : Nat) (image : Location) : Bool :=
  decide (1 ≤ o.tool ∧ o.tool ≤ 2047) && decide (1 ≤ o.rank ∧ o.rank ≤ 8) &&
    decide (1 ≤ o.limit) && decide (o.remaining ≤ o.limit) && decide (o.warn ≤ o.limit) &&
    (o.directive != .renew || o.remaining == o.limit) &&
    locationAccepted P image o.location && decide (o.home ≤ P)

/-- The condition that the directive stores (R28, R29, R30), from the stored life fields and the condition before. -/
def Offered.condition (o : Offered) (before : Condition) : Condition :=
  match o.directive with
  | .retire => .damaged
  | .renew => .fresh
  | .keep =>
    if o.mode ≠ .uncounted ∧ o.remaining = 0 then .worn
    else if before = .fresh then .fresh
    else if 0 < o.warn ∧ o.remaining ≤ o.warn then .nearEnd
    else .used

/-- The persistent fields that the STORE would store over `before` (R127, effect 1). RENEW and a store over a vacant
slot give charged total 0. -/
def Offered.stored (o : Offered) (before : Record) : Record :=
  { condition := o.condition before.condition
    tool := o.tool
    rank := o.rank
    size := o.size
    mode := o.mode
    limit := o.limit
    remaining := o.remaining
    warn := o.warn
    charged := if o.directive = .renew ∨ before.condition = .vacant then 0 else before.charged
    location := o.location
    home := o.home
    hold := o.hold
    measure := o.measure }

/-- Step 5: a non-vacant slot other than `k` holds the tool number and rank (R35, R125). -/
def State.rankTaken (s : State) (k : Slot) (r : Record) : Bool :=
  slots.any (fun j => decide (j ≠ k) && (s.record j).occupied && decide ((s.record j).tool = r.tool) &&
    decide ((s.record j).rank = r.rank))

/-- A change of a locked field: tool number, rank, size or location (R94). -/
def lockedFieldChanges (before after : Record) : Bool :=
  decide (after.tool ≠ before.tool) || decide (after.rank ≠ before.rank) || decide (after.size ≠ before.size) ||
    decide (after.location ≠ before.location)

/-- Step 7: placement is judged when the slot goes to a pocket it is not in, or changes size in its own (R65,
R126). -/
def State.placementRefused (s : State) (k : Slot) (r : Record) : Bool :=
  match r.location with
  | .pocket p =>
    (decide ((s.record k).location ≠ .pocket p) || decide (r.size ≠ (s.record k).size)) &&
      !s.placeable [k] r.size p
  | _ => false

/-- Step 8: the spindle is not available to slot `k` (R62, R126). -/
def State.spindleRefused (s : State) (k : Slot) (r : Record) : Bool :=
  decide (r.location = .spindle) &&
    match s.spindle with
    | .empty => false
    | .holds j => decide (j ≠ k)
    | .exchanging => true
    | .unknown =>
      match s.exchange with
      | .suspect _ _ => true
      | _ => false

/-- The spindle after a STORE of slot `k` (R62). -/
def Spindle.afterStore (sp : Spindle) (k : Slot) (loc : Location) : Spindle :=
  match loc with
  | .spindle => .holds k
  | _ =>
    if sp = .holds k then (if loc.isUnknown then .unknown else .empty) else sp

/-- The class of a STORE (R31, R127). -/
def storeClass (before after : Record) : CommitClass :=
  if after.location ≠ before.location ∨ after.condition.retired ≠ before.condition.retired then .urgent else .normal

/-- Steps 4 to 8 for slot `k` (R124–R126): the result that refuses, or the fields to store. -/
def State.judgeStore (s : State) (k : Slot) : Except Result Record :=
  match s.host.work.offered with
  | none => .error .range
  | some o =>
    let new := o.stored (s.record k)
    if !o.inRange s.pockets (s.record k).location then .error .range
    else if s.rankTaken k new then .error .rankTaken
    else if s.exchange.names k && lockedFieldChanges (s.record k) new then .error .locked
    else if s.placementRefused k new then .error .pocketConflict
    else if s.spindleRefused k new then .error .spindleTaken
    else .ok new

/-- The effects of an accepted STORE on the image and the spindle (R127; log 22). -/
def State.applyStore (s : State) (k : Slot) (new : Record) : State :=
  let t := s.claim k new (storeClass (s.record k) new)
  { t with spindle := s.spindle.afterStore k new.location }

/-- STORE (R118, R122–R128). -/
def State.takeStore (s : State) : State :=
  match s.host.workState.slot? with
  | none => s.complete .notFetched
  | some k =>
    if s.opState ≠ .running then s.complete .frozen
    else if s.storeStale then s.complete .stale
    else
      match s.judgeStore k with
      | .error r => s.complete r
      | .ok new => ((s.applyStore k new).fillWork k).complete .ok

/-! #### The other commands -/

/-- RELEASE in RUNNING (R12, R129). -/
def State.takeRelease (s : State) : State :=
  match s.argSlot? with
  | none => s.complete .range
  | some k =>
    if (s.record k).occupied && ((s.record k).location == .out || (s.record k).location.isUnknown) then
      if s.exchange.names k then s.complete .locked
      else ((s.claim k Record.vacant .normal).setAttn k false).complete .ok
    else s.complete .inMachine

/-- LOCATE: the result and the slot argument register (R53). -/
def State.takeLocate (s : State) : State :=
  let t := s.host.argTool.toNat
  let n := s.host.argPos.toNat
  let place (b : Byte) : State := { s with host := { s.host with argSlot := b } }
  if 1 ≤ t ∧ t ≤ 2047 ∧ 1 ≤ n ∧ n ≤ 8 then
    match (s.callIndex t)[n - 1]? with
    | some k => (place (byteNat k.val)).complete .ok
    | none => (place 255).complete .notFound
  else (place 255).complete .range

/-- RESOLVE_MOVED in RUNNING (R93). -/
def State.takeResolveMoved (s : State) : State :=
  match s.exchange with
  | .suspect x _ => (s.completeMove x.movement).complete .ok
  | _ => s.complete .noExchange

/-- RESOLVE_NOT_MOVED in RUNNING (R93). -/
def State.takeResolveNotMoved (s : State) : State :=
  match s.exchange with
  | .suspect x _ => (s.revert x.movement).complete .ok
  | _ => s.complete .noExchange

/-- The exchange context is SUSPECT. -/
def Exchange.isSuspect : Exchange → Bool
  | .suspect _ _ => true
  | _ => false

/-- DECLARE_SPINDLE_EMPTY in RUNNING (R63). -/
def State.takeDeclareSpindleEmpty (s : State) : State :=
  if s.spindle = .unknown ∧ !s.exchange.isSuspect ∧ s.spindleSlot = none then
    let t : State := { s with spindle := .empty }
    t.complete .ok
  else s.complete .range

/-- STORE_FAULT of slot `k` is cleared, and the slot is handed normal unless it is queued or in flight (R15, R130). -/
def State.retry (s : State) (k : Slot) : State :=
  if s.queue.holds (.slot k) || s.inFlight (.slot k) then
    s.setSlot k { s.slot k with storeFault := false }
  else
    { s.setSlot k { s.slot k with storeFault := false, dirty := true } with
      queue := s.queue.hand (.slot k) .normal }

/-- RETRY_STORE in RUNNING (R130). -/
def State.takeRetryStore (s : State) : State :=
  match s.argSlot? with
  | none => s.complete .range
  | some k => if (s.slot k).storeFault then (s.retry k).complete .ok else s.complete .noFault

/-- FLUSH (R118, R131, R144): completes at once in RUNNING with the queue drained, otherwise the command state becomes
BUSY (log 6). -/
def State.takeFlush (s : State) : State :=
  if s.opState = .running ∧ s.drained then s.complete .ok
  else { s with host := { s.host with busy := true } }

/-- A waiting FLUSH completes once the queue is drained in RUNNING (R131; log 6). -/
def State.completeFlush (s : State) : State :=
  if s.host.busy && s.opState == .running && s.drained then
    ({ s with host := { s.host with busy := false } } : State).complete .ok
  else s

/-! #### CONFIG_STORE -/

/-- The staged configuration, none where a value lies outside its range (R71, case 2). -/
def HostPort.staged (h : HostPort) : Option Configuration := do
  let policy ← policyOfCode h.stagePolicy
  if Config.pocketsMin ≤ h.stageP.toNat ∧ h.stageP.toNat ≤ Config.pocketsMax ∧ 1 ≤ h.stageTimeout.toNat then
    some { pockets := h.stageP.toNat, policy, timeout := h.stageTimeout.toNat }
  else none

/-- Case 3: a non-vacant slot has a location pocket part, or a home pocket, beyond the count (R71). -/
def State.beyond (s : State) (P : Nat) : Bool :=
  slots.any (fun k => (s.record k).occupied &&
    (decide (P < (s.record k).location.pocketPart.getD 0) || decide (P < (s.record k).home)))

/-- The pocket that POCKET p or UNKNOWN with pocket part p names (R71, case 4). -/
def Location.standing : Location → Option Nat
  | .pocket p => some p
  | .unknown p => p
  | _ => none

/-- A non-vacant slot other than `k` whose location names pocket `p`, whatever its kind (R71, case 4). -/
def State.otherNames (s : State) (k : Slot) (p : Nat) : Bool :=
  slots.any (fun j => decide (j ≠ k) && (s.record j).occupied && (s.record j).location.pocketPart == some p)

/-- Case 4: in the ring of `P` pockets, a LARGE slot standing in p has a ring neighbour of p named by another slot
(R71). -/
def State.crowded (s : State) (P : Nat) : Bool :=
  slots.any (fun k => (s.record k).occupied && (s.record k).size == .large &&
    match (s.record k).location.standing with
    | some p => s.otherNames k (ringBefore P p) || s.otherNames k (ringAfter P p)
    | none => false)

/-- The staged values are applied; CFG is handed urgent when a value changed (R72). -/
def State.applyConfig (s : State) (c : Configuration) : State :=
  if s.config = some c then s
  else { s with config := some c, queue := s.queue.hand .cfg .urgent }

/-- CONFIG_STORE in RUNNING, by the table of R71 (R72). The locations of an open exchange are counted in cases 3 and 4
as the table counts them, so POCKET_CONFLICT may come before LOCKED (log 29). -/
def State.takeConfigStore (s : State) : State :=
  match s.host.staged with
  | none => s.complete .range
  | some c =>
    if s.beyond c.pockets || s.crowded c.pockets then s.complete .pocketConflict
    else if s.exchange ≠ .idle then s.complete .locked
    else (s.applyConfig c).complete .ok

/-- A write of any code to COMMAND (R117, R118). -/
def State.writeCommand (s : State) (code : Byte) : State :=
  match code.toNat with
  | 1 => s.issue code State.takeFetch
  | 2 => s.issue code (fun t => t.whenRunning State.takeNew)
  | 3 => s.issue code State.takeStore
  | 4 => s.issue code State.takeDiscard
  | 5 => s.issue code (fun t => t.whenRunning State.takeRelease)
  | 6 => s.issue code State.takeLocate
  | 7 => s.issue code (fun t => t.whenRunning State.takeResolveMoved)
  | 8 => s.issue code (fun t => t.whenRunning State.takeResolveNotMoved)
  | 9 => s.issue code (fun t => t.whenRunning State.takeDeclareSpindleEmpty)
  | 10 => s.issue code (fun t => t.whenRunning State.takeRetryStore)
  | 11 => s.issue code State.takeFlush
  | 12 => s.issue code (fun t => t.whenRunning State.takeConfigStore)
  | _ => s.issue code (fun t => t.complete .unknownCommand)

/-- A write with A10 = 0 at A9–A0 (R113, R115, R117, R143, R147): ignored while writes are not served and where any of
A9–A6 is set; the positions with behaviour of their own act by it; an RW position takes the byte; every other
position ignores it. -/
def State.writeWindow (s : State) (address : BitVec 10) (data : Byte) : State :=
  if s.served && address.extractLsb' 6 4 == 0 then
    match (address.extractLsb' 0 6).toNat with
    | 0x03 => s.writeStatus data
    | 0x04 => s.writeCommand data
    | 0x0A => s.writeIntPending data
    | 0x0B => s.writeIntEnable data
    | o => { s with host := s.host.writeByte o data }
  else s

/-! ### The host bus -/

/-- The command that a code written to COMMAND is (R117). -/
def commandOfCode (code : Byte) : Instr :=
  match code.toNat with
  | 1 => .fetch
  | 2 => .new
  | 3 => .store
  | 4 => .discard
  | 5 => .release
  | 6 => .locate
  | 7 => .resolveMoved
  | 8 => .resolveNotMoved
  | 9 => .declareSpindleEmpty
  | 10 => .retryStore
  | 11 => .flush
  | 12 => .configStore
  | _ => .unknownCommand code

/-- The command that a register-window write at A9–A0 is (R114, R115, R117, R143, R147). -/
def windowWrite (address : BitVec 10) (data : Byte) : Instr :=
  match address.toNat with
  | 0x03 => .statusWrite data
  | 0x04 => commandOfCode data
  | 0x0A => .intPendingWrite data
  | 0x0B => .intEnableWrite data
  | _ => .registerWrite address data

/-- The command that a write of the host bus at A10–A0 is: A10 at 1 addresses the flag space, at 0 the register window
(R113, R135). -/
def hostWrite (address : BitVec 11) (data : Byte) : Instr :=
  if address.getLsbD 10 then flagWrite (address.extractLsb' 0 10) else windowWrite (address.extractLsb' 0 10) data

/-- A read of the host bus at A10–A0: of the flag space with A10 at 1, of the register window with A10 at 0 (R113,
R135). -/
def State.readHost (s : State) (address : BitVec 11) : Option Byte :=
  if address.getLsbD 10 then s.readFlag (address.extractLsb' 0 10) else s.readWindow (address.extractLsb' 0 10)

/-! ### Reset -/

/-- The Host Port after /RESET (R133): the field positions keep their bytes, the staging registers take the applied
configuration, 0 while none is loaded (R168), and SUSPECT is pending when the context is SUSPECT. -/
def State.resetHost (s : State) : State :=
  { s with host :=
    { busy := false, command := 0, result := .ok, cmdRefused := false, argSlot := 0, argTool := 0, argPos := 0,
      pocketSelect := 0
      stageP := byteNat ((s.config.map (fun c => c.pockets)).getD 0)
      stagePolicy := byteNat ((s.config.map (fun c => c.policy.code)).getD 0)
      stageTimeout := byteNat ((s.config.map (fun c => c.timeout)).getD 0)
      workState := .empty, work := s.host.work
      causes := { Causes.clear with suspect := s.exchange.isSuspect }
      enable := 0 } }

end Sys2Proof.Machine
end

