-- ==== Sys2Proof/Machine/Array.lean ====
section
/-! DEFINITION. The persistent array and the Commit Engine: newest copies, the start, completion, failure and
abandonment of a flight (spec/09). -/

namespace Sys2Proof.Machine

/-! ### Copies -/

/-- The copy of a pair by name. -/
def CopyPair.get {α : Type} (c : CopyPair α) : CopyName → Copy α
  | .a => c.a
  | .b => c.b

/-- The pair with the named copy replaced. -/
def CopyPair.put {α : Type} (c : CopyPair α) (n : CopyName) (x : Copy α) : CopyPair α :=
  match n with
  | .a => { c with a := x }
  | .b => { c with b := x }

/-- The other copy. -/
def CopyName.other : CopyName → CopyName
  | .a => .b
  | .b => .a

/-- The newest valid copy of a pair with its fields (R150). Where both are valid it is B when B's generation is A's
plus 1 mod 4, and A otherwise. -/
def CopyPair.newestValid {α : Type} (c : CopyPair α) : Option (Newest × α) :=
  match c.a, c.b with
  | .valid x g, .valid y h => if h = g + 1 then some (⟨.b, h⟩, y) else some (⟨.a, g⟩, x)
  | .valid x g, _ => some (⟨.a, g⟩, x)
  | _, .valid y h => some (⟨.b, h⟩, y)
  | _, _ => none

/-- Both copies are in the erased state (R149, R150). -/
def CopyPair.bothErased {α : Type} (c : CopyPair α) : Bool :=
  match c.a, c.b with
  | .erased, .erased => true
  | _, _ => false

/-- The target copy of the next commit (R150). -/
def targetOf : Option Newest → CopyName
  | some n => n.copy.other
  | none => .a

/-- The generation the next commit writes (R150). -/
def generationOf : Option Newest → Generation
  | some n => n.gen + 1
  | none => 0

/-! ### Flights -/

/-- The Commit Engine's record of the newest copy of an entry (R150). -/
def State.newestOf (s : State) : Entry → Option Newest
  | .slot k => s.newest[k]
  | .cfg => s.cfgNewest

/-- The snapshot of an entry: the persistent fields with the edit stamp, or the applied configuration (R153). -/
def State.snapshot (s : State) : Entry → Snapshot
  | .slot k => .slot k (s.record k) (s.slot k).stamp
  | .cfg => .cfg (s.config.getD Configuration.blank)

/-- The head of the queue is taken into flight when the part is RUNNING, no commit is in flight and the queue holds an
entry (R153). -/
def State.startFlight (s : State) : State :=
  if s.opState = .running ∧ s.flight = none then
    match s.queue.head with
    | some (e, cls) =>
      { s with
        queue := s.queue.tail
        flight := some
          { content := s.snapshot e, cls, attempt := 1, target := targetOf (s.newestOf e),
            gen := generationOf (s.newestOf e), confirmSet := false } }
    | none => s
  else s

/-- The flight's target copy is left in the given state: a snapshot and generation with its check word, or invalid
(R154, R155, R159). -/
def State.writeTarget (s : State) (f : Flight) (verified : Bool) : State :=
  match f.content with
  | .slot k r _ =>
    { s with
      slotCopies := s.slotCopies.set k
        ((s.slotCopies[k]).put f.target (if verified then .valid r f.gen else .invalid)) }
  | .cfg c =>
    { s with cfgCopies := s.cfgCopies.put f.target (if verified then .valid c f.gen else .invalid) }

/-- The flight's snapshot was taken after the latest claim that queued slot `k` for a confirmation record: the
stamp at the snapshot equals the confirm-from stamp or follows it by 1 to 32767 steps (R158). -/
def State.snapshotAfter (s : State) (k : Slot) (stamp : Stamp) : Bool :=
  match s.confirmFrom[k] with
  | some c => decide ((stamp - c).toNat ≤ 32767)
  | none => false

/-- The completion of the commit in flight (R155, R161), with its notice to the Exchange Controller (R158). -/
def State.completeFlight (s : State) (f : Flight) : State :=
  let t : State := { s.writeTarget f true with flight := none }
  match f.content with
  | .slot k _ stamp =>
    let x := t.slot k
    let u : State :=
      { t.setSlot k { x with dirty := x.dirty && t.queue.holds (.slot k), storeFault := false } with
        newest := t.newest.set k (some ⟨f.target, f.gen⟩) }
    u.notify k true (u.snapshotAfter k stamp)
  | .cfg _ => { t with cfgNewest := some ⟨f.target, f.gen⟩ }

/-- The failure of the commit in flight at its third attempt (R156, R161), with its notice (R158). An entry added
during the flight goes with it, unless an open, a DONE or an ABANDON set the slot's confirm-from stamp during the
flight. -/
def State.failFlight (s : State) (f : Flight) : State :=
  let t : State := { s.writeTarget f false with flight := none }
  match f.content with
  | .slot k _ stamp =>
    let u : State :=
      { t.setSlot k { t.slot k with storeFault := true, attn := true, dirty := true } with
        queue := if f.confirmSet then t.queue else t.queue.remove (.slot k) }
    u.notify k false (u.snapshotAfter k stamp)
  | .cfg _ =>
    { t with queue := t.queue.remove .cfg
             host := { t.host with causes := { t.host.causes with configFault := true } } }

/-- The next attempt of the same snapshot into the same target, which the failed verify has left invalid (R154). -/
def State.retryFlight (s : State) (f : Flight) : State :=
  { s.writeTarget f false with flight := some { f with attempt := f.attempt + 1 } }

/-- The end of an attempt by its verify (R154). -/
def State.endAttempt (s : State) (v : Verify) : State :=
  match s.flight with
  | none => s
  | some f =>
    match v with
    | .pass => s.completeFlight f
    | .fail => if f.attempt < Config.attemptMax then s.retryFlight f else s.failFlight f

/-- The return of an abandoned flight's entry to the queue (R159). -/
def CommitQueue.giveBack (q : CommitQueue) (e : Entry) (cls : CommitClass) : CommitQueue :=
  if q.urgent.contains e then q
  else
    match cls with
    | .urgent => { urgent := e :: q.urgent, normal := q.normal.filter (fun x => x != e) }
    | .normal => if q.normal.contains e then q else { q with normal := e :: q.normal }

/-- The flight is abandoned at the entry into FROZEN: its target is left invalid and its entry returns (R159). -/
def State.abandonFlight (s : State) : State :=
  match s.flight with
  | none => s
  | some f =>
    { s.writeTarget f false with flight := none, queue := s.queue.giveBack f.content.entry f.cls }

end Sys2Proof.Machine
end

