-- ==== Sys2Proof/Machine/Scan.lean ====
section
/-! DEFINITION. The start-up scan: what it loads, the repairs in their order, attention seeding, and what its
completion step enters into the other blocks (spec/10, R168–R174). -/

namespace Sys2Proof.Machine

/-- What the scan builds apart from the image: the slots as loaded and repaired, and the handings in the order in
which the passes make them (R168, R172). -/
structure ScanWork where
  image : Image
  handings : List (Slot × CommitClass)
deriving DecidableEq, Repr

/-- A slot as the scan loads it from its two copies, as they stand (R150, R169; log 21). -/
def loadSlot (c : CopyPair Record) : SlotState :=
  match c.newestValid with
  | some (_, r) => { fields := r, attn := false, dirty := false, storeFault := false, stamp := 0 }
  | none =>
    if c.bothErased then SlotState.blank
    else { fields := Record.vacant, attn := true, dirty := true, storeFault := true, stamp := 0 }

/-- The configuration as the scan loads it, with whether CONFIG_FAULT is raised (R169). -/
def loadConfig (c : CopyPair Configuration) : Configuration × Bool :=
  match c.newestValid with
  | some (_, v) => (v, false)
  | none => (Configuration.blank, !c.bothErased)

/-- The loaded image before any repair (R169). -/
def State.loadedImage (s : State) : Image := s.slotCopies.map loadSlot

/-- The persistent fields of slot `k` as the scan has them. -/
def ScanWork.record (w : ScanWork) (k : Slot) : Record := (w.image[k]).fields

/-- A repair of slot `k`: its fields, ATTN, DIRTY and its handing (R170–R172). -/
def ScanWork.repair (w : ScanWork) (k : Slot) (new : Record) (cls : CommitClass) : ScanWork :=
  { image := w.image.set k { w.image[k] with fields := new, attn := true, dirty := true }
    handings := w.handings ++ [(k, cls)] }

/-- ATTN of slot `k` set, and nothing else. -/
def ScanWork.mark (w : ScanWork) (k : Slot) : ScanWork :=
  { w with image := w.image.set k { w.image[k] with attn := true } }

/-- A pocket part that a location repair keeps: none when it lies beyond the loaded pocket count (R10, R170). -/
def keptPocket (P : Nat) (p : Option Nat) : Option Nat := p.filter (fun q => decide (q ≤ P))

/-- A location repair: UNKNOWN with the pocket part kept, ATTN, urgent (R170). -/
def ScanWork.repairLocation (w : ScanWork) (P : Nat) (k : Slot) : ScanWork :=
  w.repair k { w.record k with location := .unknown (keptPocket P (w.record k).location.pocketPart) } .urgent

/-- A lower-numbered non-vacant slot has the same location. -/
def ScanWork.sharedBelow (w : ScanWork) (k : Slot) : Bool :=
  slots.any (fun j => decide (j < k) && (w.record j).occupied && (w.record j).location == (w.record k).location)

/-- Pass 1, transit, at slot `k` (R170). -/
def scanTransit (P : Nat) (w : ScanWork) (k : Slot) : ScanWork :=
  match (w.record k).location with
  | .transitIn _ => if (w.record k).occupied then w.repairLocation P k else w
  | .transitBack _ => if (w.record k).occupied then w.repairLocation P k else w
  | _ => w

/-- Pass 2, beyond the ring, at slot `k` (R170). -/
def scanBeyond (P : Nat) (w : ScanWork) (k : Slot) : ScanWork :=
  match (w.record k).location with
  | .pocket p => if (w.record k).occupied && decide (P < p) then w.repairLocation P k else w
  | .unknown (some p) => if (w.record k).occupied && decide (P < p) then w.repairLocation P k else w
  | _ => w

/-- Pass 3, shared pockets, at slot `k` (R170). -/
def scanShared (P : Nat) (w : ScanWork) (k : Slot) : ScanWork :=
  match (w.record k).location with
  | .pocket _ => if (w.record k).occupied && w.sharedBelow k then w.repairLocation P k else w
  | _ => w

/-- Pass 4, spindle, at slot `k` (R170). -/
def scanSpindle (P : Nat) (w : ScanWork) (k : Slot) : ScanWork :=
  match (w.record k).location with
  | .spindle => if (w.record k).occupied && w.sharedBelow k then w.repairLocation P k else w
  | _ => w

/-- The non-vacant slot with location POCKET q, other than `k`. -/
def ScanWork.holderOf (w : ScanWork) (k : Slot) (q : Nat) : Option Slot :=
  slots.find? (fun j => decide (j ≠ k) && (w.record j).occupied && (w.record j).location == .pocket q)

/-- Pass 5 at LARGE slot `k` in pocket `p` and the neighbour pocket `q`: a higher-numbered holder is repaired, a
lower-numbered one has `k` repaired. -/
def scanNeighbour (P : Nat) (k : Slot) (p : Nat) (w : ScanWork) (q : Nat) : ScanWork :=
  if (w.record k).location = .pocket p then
    match w.holderOf k q with
    | some n => if k < n then w.repairLocation P n else w.repairLocation P k
    | none => w
  else w

/-- Pass 5, LARGE neighbours, at slot `k`: the neighbour before, then the one after; once `k` itself is repaired its
examination ends (R170). -/
def scanLarge (P : Nat) (w : ScanWork) (k : Slot) : ScanWork :=
  match (w.record k).location with
  | .pocket p =>
    if (w.record k).occupied && (w.record k).size == .large then
      scanNeighbour P k p (scanNeighbour P k p w (ringBefore P p)) (ringAfter P p)
    else w
  | _ => w

/-- Field repair 1, home beyond the ring, at slot `k` (R171). -/
def scanHome (P : Nat) (w : ScanWork) (k : Slot) : ScanWork :=
  if (w.record k).occupied && decide (P < (w.record k).home) then
    w.repair k { w.record k with home := 0 } .normal
  else w

/-- A lower-numbered non-vacant slot has the same tool number and rank. -/
def ScanWork.rankBelow (w : ScanWork) (k : Slot) : Bool :=
  slots.any (fun j => decide (j < k) && (w.record j).occupied &&
    decide ((w.record j).tool = (w.record k).tool) && decide ((w.record j).rank = (w.record k).rank))

/-- Field repair 2, duplicate ranks, at slot `k`: HOLD and ATTN are set, and the slot is handed normal when HOLD was
clear (R171). -/
def scanDuplicate (w : ScanWork) (k : Slot) : ScanWork :=
  if (w.record k).occupied && w.rankBelow k then
    if (w.record k).hold then w.mark k else w.repair k { w.record k with hold := true } .normal
  else w

/-- Attention seeding at slot `k` (R172). -/
def scanSeed (w : ScanWork) (k : Slot) : ScanWork :=
  if (w.record k).occupied && ((w.record k).condition.callsAttention || (w.record k).location.isUnknown) then w.mark k
  else w

/-- The scan's result for a loaded image and pocket count: the five location passes, the two field repairs and the
seeding, each in increasing slot number (R170–R172). -/
def scanRepairs (P : Nat) (image : Image) : ScanWork :=
  let w := ScanWork.mk image []
  let w := slots.foldl (scanTransit P) w
  let w := slots.foldl (scanBeyond P) w
  let w := slots.foldl (scanShared P) w
  let w := slots.foldl (scanSpindle P) w
  let w := slots.foldl (scanLarge P) w
  let w := slots.foldl (scanHome P) w
  let w := slots.foldl scanDuplicate w
  slots.foldl scanSeed w

/-- The queue that the scan's handings build, placed by the table of R152 in the order in which the passes made them
(R172), within the fifth pass the order of its examinations (log 30). -/
def ScanWork.queue (w : ScanWork) : CommitQueue :=
  w.handings.foldl (fun q h => q.hand (.slot h.1) h.2) { urgent := [], normal := [] }

/-- The spindle state derived from a scanned image (R173). -/
def ScanWork.spindle (w : ScanWork) : Spindle :=
  match slots.find? (fun k => (w.record k).occupied && (w.record k).location == .spindle) with
  | some k => .holds k
  | none =>
    if slots.any (fun k => (w.record k).occupied && (w.record k).location.isUnknown) then .unknown else .empty

/-- The completion step of the scan, before the head of the queue is taken into flight (R168–R174). The link keeps
what the power-on interval left in it. -/
def State.enterScan (s : State) : State :=
  let (c, configFault) := loadConfig s.cfgCopies
  let w := scanRepairs c.pockets s.loadedImage
  { s with
    opState := .running
    settleRunning := false
    imageHeld := true
    image := w.image
    config := some c
    spindle := w.spindle
    exchange := .idle
    nextTag := 1
    confirmation := none
    host :=
      { s.host with
        workState := .empty, stageP := byteNat c.pockets, stagePolicy := byteNat c.policy.code,
        stageTimeout := byteNat c.timeout, enable := 0, causes := { Causes.clear with configFault } }
    queue := w.queue
    flight := none
    newest := s.slotCopies.map (fun p => p.newestValid.map Prod.fst)
    cfgNewest := s.cfgCopies.newestValid.map Prod.fst
    confirmFrom := Vector.replicate 128 none }

end Sys2Proof.Machine
end

