-- ==== Sys2Proof/Machine/LinkRequests.lean ====
section
/-! DEFINITION. The meanings of the link requests: each is the trailing edge of /RQSTB with its word (spec/06, R98,
R100, R101). -/

namespace Sys2Proof.Machine

/-- CALL (R41–R49, R78). -/
def execCall (operand : BitVec 12) (take : Timing) (s : State) : Host.Outcome State Fault Refusal :=
  .next (s.latchRequest kindCall operand take (fun t => t.decideCall operand.toNat))

/-- PUTAWAY (R77, R78). -/
def execPutaway (operand : BitVec 12) (take : Timing) (s : State) : Host.Outcome State Fault Refusal :=
  .next (s.latchRequest kindPutaway operand take State.decidePutaway)

/-- DONE, taken in the step of the latch (R86, R88, R100). -/
def execDone (operand : BitVec 12) (s : State) : Host.Outcome State Fault Refusal :=
  .next (s.latchRequest kindDone operand .inStep (fun t => t.decideDone operand.toNat))

/-- ABANDON, taken in the step of the latch (R87, R88, R100). -/
def execAbandon (operand : BitVec 12) (s : State) : Host.Outcome State Fault Refusal :=
  .next (s.latchRequest kindAbandon operand .inStep (fun t => t.decideAbandon operand.toNat))

/-- CHARGE (R19–R25). -/
def execCharge (operand : BitVec 12) (take : Timing) (s : State) : Host.Outcome State Fault Refusal :=
  .next (s.latchRequest kindCharge operand take (fun t => t.decideCharge operand.toNat))

/-- DAMAGE (R26). -/
def execDamage (operand : BitVec 12) (take : Timing) (s : State) : Host.Outcome State Fault Refusal :=
  .next (s.latchRequest kindDamage operand take State.decideDamage)

/-- PROBE (R50–R52). -/
def execProbe (operand : BitVec 12) (take : Timing) (s : State) : Host.Outcome State Fault Refusal :=
  .next (s.latchRequest kindProbe operand take (fun t => t.decideProbe operand.toNat))

/-- A word of kind 0 or 8 to 15 (R98): answered by the link. A word of another kind is decided by its kind (log 8). -/
def execUnknownRequest (kind : BitVec 4) (operand : BitVec 12) (s : State) : Host.Outcome State Fault Refusal :=
  .next (s.latchRequest kind operand .inStep (fun t => t.decideRequest kind operand))

/-- The take of a handed-on request by its block, or POWER_LOW when the operating state has left RUNNING since (R101).
With no request handed on there is none to take (log 7). -/
def State.takeHandedOn (s : State) : State :=
  if s.link.phase = .handedOn then
    match s.link.latch with
    | some w =>
      if s.opState ≠ .running ∨ s.link.leftRunning then s.answer .powerLow
      else s.decideRequest (requestKind w) (requestOperand w)
    | none => s
  else s

/-- REQUEST_TAKE_BY_BLOCK (R101). -/
def execRequestTakeByBlock (s : State) : Host.Outcome State Fault Refusal := .next s.takeHandedOn

end Sys2Proof.Machine
end

