-- ==== Sys2Proof/Machine/LinkHandshake.lean ====
section
/-! DEFINITION. The meanings of the handshake edges, of the answer release, of the exchange timer and of the /RESET pin
(spec/06, R99–R111; spec/05, R84, R90, R92). -/

namespace Sys2Proof.Machine

/-- RQSTB_LEADING_EDGE: a leading edge of /RQSTB, judged against the phase (R99; log 8). -/
def execRqstbLeadingEdge (s : State) : Host.Outcome State Fault Refusal := .next s.rqstbLeading

/-- STROBE_WHILE_BUSY: a leading edge of /RQSTB, judged against the phase (R99, R108; log 8). -/
def execStrobeWhileBusy (s : State) : Host.Outcome State Fault Refusal := .next s.rqstbLeading

/-- ANTAKE_LEADING_EDGE: a leading edge of /ANTAKE, judged against the status (R103; log 8). -/
def execAntakeLeadingEdge (s : State) : Host.Outcome State Fault Refusal := .next s.antakeLeading

/-- TAKE_WITHOUT_ANSWER: a leading edge of /ANTAKE, judged against the status (R103, R109; log 8). -/
def execTakeWithoutAnswer (s : State) : Host.Outcome State Fault Refusal := .next s.antakeLeading

/-- The report of the take of word 2: an OFFERED exchange becomes RESERVED and its timer starts at the applied timeout;
any other context is unchanged (R84, R104). -/
def State.reportTake (s : State) : State :=
  match s.exchange with
  | .offered x => { s with exchange := .reserved x s.timeout }
  | _ => s

/-- The trailing edge of /ANTAKE (R104): ignored when the acceptance mark is clear. -/
def State.takeAnswer (s : State) : State :=
  if s.served && s.link.anMark then
    let t := s.setLink s.link.takeWord
    if s.link.position = 1 then t.reportTake else t
  else s

/-- ANSWER_TAKE (R84, R104). -/
def execAnswerTake (s : State) : Host.Outcome State Fault Refusal := .next s.takeAnswer

/-- ANSWER_RELEASE: a confirmation record that can end ends, in RUNNING alone (R80, R82, R89, R105; log 4). -/
def execAnswerRelease (s : State) : Host.Outcome State Fault Refusal := .next s.releaseRecord

/-- The expiry of the exchange timer, which runs in RESERVED alone (R85, R90). -/
def State.expireTimer (s : State) : State :=
  match s.exchange with
  | .reserved x _ => if s.opState = .off then s else s.suspectExchange x .timeout
  | _ => s

/-- EXCHANGE_TIMER_EXPIRY (R90). -/
def execExchangeTimerExpiry (s : State) : Host.Outcome State Fault Refusal := .next s.expireTimer

/-- The effect of /RESET on the exchange context, with the confirmation record discarded (R92). -/
def State.resetExchange (s : State) : State :=
  let t : State := { s with confirmation := none }
  match s.exchange with
  | .idle => t
  | .offered x => t.revert x.movement
  | .reserved x _ => t.suspectExchange x .reset
  | .suspect _ _ => t

/-- The assertion of /RESET (R92, R111, R133, R148): the effect on the exchange, the link cleared, the Host Port reset,
the pin held low, and an answer not yet taken marked as lost (R112). In OFF the pin alone changes; while the pin is low
it cannot be asserted (logs 7, 16, 24). -/
def State.assertReset (s : State) : State :=
  if s.resetLow then s
  else if s.opState = .off then { s with resetLow := true }
  else
    let t := (s.resetExchange.setLink Link.cleared).resetHost
    { t with resetLow := true, lostAnswer := s.lostMark }

/-- RESET (R111). -/
def execReset (s : State) : Host.Outcome State Fault Refusal := .next s.assertReset

/-- RESET_RELEASE: /RESET is released, and nothing else changes (R111, R133). -/
def execResetRelease (s : State) : Host.Outcome State Fault Refusal := .next { s with resetLow := false }

end Sys2Proof.Machine
end

