-- ==== Sys2Proof/Machine/HostCommands.lean ====
section
/-! DEFINITION. The meanings of the host commands: each is a write of its code to COMMAND (spec/07, R117, R118). -/

namespace Sys2Proof.Machine

/-- FETCH (R120). -/
def execFetch (s : State) : Host.Outcome State Fault Refusal := .next (s.issue 1 State.takeFetch)

/-- NEW (R121). -/
def execNew (s : State) : Host.Outcome State Fault Refusal :=
  .next (s.issue 2 (fun t => t.whenRunning State.takeNew))

/-- STORE (R122–R128). -/
def execStore (s : State) : Host.Outcome State Fault Refusal := .next (s.issue 3 State.takeStore)

/-- DISCARD (R119). -/
def execDiscard (s : State) : Host.Outcome State Fault Refusal := .next (s.issue 4 State.takeDiscard)

/-- RELEASE (R129). -/
def execRelease (s : State) : Host.Outcome State Fault Refusal :=
  .next (s.issue 5 (fun t => t.whenRunning State.takeRelease))

/-- LOCATE (R53, R54). -/
def execLocate (s : State) : Host.Outcome State Fault Refusal := .next (s.issue 6 State.takeLocate)

/-- RESOLVE_MOVED (R93). -/
def execResolveMoved (s : State) : Host.Outcome State Fault Refusal :=
  .next (s.issue 7 (fun t => t.whenRunning State.takeResolveMoved))

/-- RESOLVE_NOT_MOVED (R93). -/
def execResolveNotMoved (s : State) : Host.Outcome State Fault Refusal :=
  .next (s.issue 8 (fun t => t.whenRunning State.takeResolveNotMoved))

/-- DECLARE_SPINDLE_EMPTY (R63). -/
def execDeclareSpindleEmpty (s : State) : Host.Outcome State Fault Refusal :=
  .next (s.issue 9 (fun t => t.whenRunning State.takeDeclareSpindleEmpty))

/-- RETRY_STORE (R130). -/
def execRetryStore (s : State) : Host.Outcome State Fault Refusal :=
  .next (s.issue 10 (fun t => t.whenRunning State.takeRetryStore))

/-- FLUSH (R131). -/
def execFlush (s : State) : Host.Outcome State Fault Refusal := .next (s.issue 11 State.takeFlush)

/-- FLUSH_COMPLETE: a waiting FLUSH completes in its own step (R131). -/
def execFlushComplete (s : State) : Host.Outcome State Fault Refusal := .next s.completeFlush

/-- CONFIG_STORE (R71, R72). -/
def execConfigStore (s : State) : Host.Outcome State Fault Refusal :=
  .next (s.issue 12 (fun t => t.whenRunning State.takeConfigStore))

/-- A code that names no command (R117); a code that names one is that command's (log 8). -/
def execUnknownCommand (code : Byte) (s : State) : Host.Outcome State Fault Refusal := .next (s.writeCommand code)

end Sys2Proof.Machine
end

