-- ==== Sys2Proof/Machine/HostWrites.lean ====
section
/-! DEFINITION. The meanings of the register-window writes and of the flag-space writes (spec/07, R115; spec/08,
R138–R140, R143, R147). -/

namespace Sys2Proof.Machine

/-- STATUS_WRITE (R115). -/
def execStatusWrite (data : Byte) (s : State) : Host.Outcome State Fault Refusal := .next (s.writeStatus data)

/-- INT_PENDING_WRITE (R143). -/
def execIntPendingWrite (data : Byte) (s : State) : Host.Outcome State Fault Refusal := .next (s.writeIntPending data)

/-- INT_ENABLE_WRITE (R147). -/
def execIntEnableWrite (data : Byte) (s : State) : Host.Outcome State Fault Refusal := .next (s.writeIntEnable data)

/-- REGISTER_WRITE (R113, R115). -/
def execRegisterWrite (address : BitVec 10) (data : Byte) (s : State) : Host.Outcome State Fault Refusal :=
  .next (s.writeWindow address data)

/-- HOLD_SET (R138). -/
def execHoldSet (slot : Slot) (s : State) : Host.Outcome State Fault Refusal := .next (s.writeHold slot true)

/-- HOLD_CLEAR (R35, R138). -/
def execHoldClear (slot : Slot) (s : State) : Host.Outcome State Fault Refusal := .next (s.writeHold slot false)

/-- MEASURE_SET (R138). -/
def execMeasureSet (slot : Slot) (s : State) : Host.Outcome State Fault Refusal := .next (s.writeMeasure slot true)

/-- MEASURE_CLEAR (R138). -/
def execMeasureClear (slot : Slot) (s : State) : Host.Outcome State Fault Refusal := .next (s.writeMeasure slot false)

/-- ATTN_SET (R139). -/
def execAttnSet (slot : Slot) (s : State) : Host.Outcome State Fault Refusal := .next (s.writeAttn slot true)

/-- ATTN_CLEAR (R139). -/
def execAttnClear (slot : Slot) (s : State) : Host.Outcome State Fault Refusal := .next (s.writeAttn slot false)

/-- DIRTY_WRITE: ignored in every operating state and on every slot (R140). -/
def execDirtyWrite (_slot : Slot) (_value : Bool) (s : State) : Host.Outcome State Fault Refusal := .next s

end Sys2Proof.Machine
end

