-- ==== Sys2Proof/Machine/Supply.lean ====
section
/-! DEFINITION. The meanings of the Commit Engine's steps and of the supply events (spec/09, R153–R156; spec/10,
R163–R174). -/

namespace Sys2Proof.Machine

/-- COMMIT_START (R153; log 5). -/
def execCommitStart (s : State) : Host.Outcome State Fault Refusal := .next s.startFlight

/-- COMMIT_ATTEMPT: an attempt ends with its verify (R154–R156); a confirmation record that can then end does so in
this step or later (R81, R82; log 4). With no commit in flight there is no attempt (log 7). -/
def execCommitAttempt (verify : Verify) (notice : Timing) (s : State) : Host.Outcome State Fault Refusal :=
  .next (match notice with
    | .inStep => (s.endAttempt verify).releaseRecord
    | .later => s.endAttempt verify)

/-- The SUPPLY cause goes pending (R146). -/
def State.raiseSupply (s : State) : State := s.setCauses { s.host.causes with supply := true }

/-- VCC rises above the rising write threshold (R163, R164, R165). -/
def State.supplyRises (s : State) : State :=
  match s.opState with
  | .off => s.volatileCleared .settling true
  | .settling => { s with settleRunning := true }
  | .scanning => s
  | .running => s
  | .frozen => ({ s with opState := .settling, settleRunning := true } : State).raiseSupply

/-- VCC_RISE (R163). -/
def execVccRise (s : State) : Host.Outcome State Fault Refusal := .next s.supplyRises

/-- The passage from RUNNING to FROZEN (R159, R165), which a handed-on request is marked with (R101; log 15) and which
marks an answer not yet taken as lost (R112). -/
def State.freeze (s : State) : State :=
  let t := s.abandonFlight
  ({ t with opState := .frozen, lostAnswer := s.lostMark
            link := { t.link with leftRunning := t.link.leftRunning || t.link.phase == .handedOn } } : State).raiseSupply

/-- VCC falls below the falling write threshold (R163–R165); an answer not yet taken is marked as lost (R112). -/
def State.supplyFalls (s : State) : State :=
  match s.opState with
  | .off => s
  | .settling => { s with settleRunning := false, lostAnswer := s.lostMark }
  | .scanning => { s with opState := .settling, settleRunning := false, lostAnswer := s.lostMark }
  | .running => s.freeze
  | .frozen => s

/-- VCC_FALL (R165). -/
def execVccFall (s : State) : Host.Outcome State Fault Refusal := .next s.supplyFalls

/-- VCC falls to the power-off level, from FROZEN, SETTLING or SCANNING: all volatile state is lost (R163, R167;
log 2). From RUNNING it cannot come before the fall below the write threshold (log 7). -/
def State.losePower (s : State) : State :=
  match s.opState with
  | .off => s
  | .running => s
  | .settling => s.volatileCleared .off false
  | .scanning => s.volatileCleared .off false
  | .frozen => s.volatileCleared .off false

/-- POWER_OFF (R167). -/
def execPowerOff (s : State) : Host.Outcome State Fault Refusal := .next s.losePower

/-- The settle interval ends: to SCANNING with the image-held mark clear, otherwise to RUNNING, where the head of the
queue is taken into flight in the same step (R160, R163, R166). -/
def State.endSettle (s : State) : State :=
  if s.opState = .settling ∧ s.settleRunning then
    if s.imageHeld then ({ s with opState := .running, settleRunning := false } : State).startFlight
    else { s with opState := .scanning, settleRunning := false }
  else s

/-- SETTLE_INTERVAL_END (R163). -/
def execSettleIntervalEnd (s : State) : Host.Outcome State Fault Refusal := .next s.endSettle

/-- The scan completes: its results enter in one step, and the head of the queue is taken into flight in the same step
(R160, R168). -/
def State.completeScan (s : State) : State :=
  if s.opState = .scanning then s.enterScan.startFlight else s

/-- SCAN_COMPLETE (R168). -/
def execScanComplete (s : State) : Host.Outcome State Fault Refusal := .next s.completeScan

end Sys2Proof.Machine
end

