-- ==== Sys2Proof/Machine/Dispatch.lean ====
section
/-! DEFINITION. The dispatch of a command to its meaning, one arm per constructor of Instr. -/

namespace Sys2Proof.Machine

def exec (i : Instr) (s : State) : Host.Outcome State Fault Refusal :=
  match i with
  | .call operand take => Sys2Proof.Machine.execCall operand take s
  | .putaway operand take => Sys2Proof.Machine.execPutaway operand take s
  | .done operand => Sys2Proof.Machine.execDone operand s
  | .abandon operand => Sys2Proof.Machine.execAbandon operand s
  | .charge operand take => Sys2Proof.Machine.execCharge operand take s
  | .damage operand take => Sys2Proof.Machine.execDamage operand take s
  | .probe operand take => Sys2Proof.Machine.execProbe operand take s
  | .unknownRequest kind operand => Sys2Proof.Machine.execUnknownRequest kind operand s
  | .strobeWhileBusy => Sys2Proof.Machine.execStrobeWhileBusy s
  | .answerTake => Sys2Proof.Machine.execAnswerTake s
  | .takeWithoutAnswer => Sys2Proof.Machine.execTakeWithoutAnswer s
  | .answerRelease => Sys2Proof.Machine.execAnswerRelease s
  | .exchangeTimerExpiry => Sys2Proof.Machine.execExchangeTimerExpiry s
  | .reset => Sys2Proof.Machine.execReset s
  | .fetch => Sys2Proof.Machine.execFetch s
  | .new => Sys2Proof.Machine.execNew s
  | .store => Sys2Proof.Machine.execStore s
  | .discard => Sys2Proof.Machine.execDiscard s
  | .release => Sys2Proof.Machine.execRelease s
  | .locate => Sys2Proof.Machine.execLocate s
  | .resolveMoved => Sys2Proof.Machine.execResolveMoved s
  | .resolveNotMoved => Sys2Proof.Machine.execResolveNotMoved s
  | .declareSpindleEmpty => Sys2Proof.Machine.execDeclareSpindleEmpty s
  | .retryStore => Sys2Proof.Machine.execRetryStore s
  | .flush => Sys2Proof.Machine.execFlush s
  | .flushComplete => Sys2Proof.Machine.execFlushComplete s
  | .configStore => Sys2Proof.Machine.execConfigStore s
  | .unknownCommand code => Sys2Proof.Machine.execUnknownCommand code s
  | .statusWrite data => Sys2Proof.Machine.execStatusWrite data s
  | .intPendingWrite data => Sys2Proof.Machine.execIntPendingWrite data s
  | .intEnableWrite data => Sys2Proof.Machine.execIntEnableWrite data s
  | .registerWrite address data => Sys2Proof.Machine.execRegisterWrite address data s
  | .holdSet slot => Sys2Proof.Machine.execHoldSet slot s
  | .holdClear slot => Sys2Proof.Machine.execHoldClear slot s
  | .measureSet slot => Sys2Proof.Machine.execMeasureSet slot s
  | .measureClear slot => Sys2Proof.Machine.execMeasureClear slot s
  | .attnSet slot => Sys2Proof.Machine.execAttnSet slot s
  | .attnClear slot => Sys2Proof.Machine.execAttnClear slot s
  | .dirtyWrite slot value => Sys2Proof.Machine.execDirtyWrite slot value s
  | .commitStart => Sys2Proof.Machine.execCommitStart s
  | .commitAttempt verify notice => Sys2Proof.Machine.execCommitAttempt verify notice s
  | .vccRise => Sys2Proof.Machine.execVccRise s
  | .vccFall => Sys2Proof.Machine.execVccFall s
  | .powerOff => Sys2Proof.Machine.execPowerOff s
  | .settleIntervalEnd => Sys2Proof.Machine.execSettleIntervalEnd s
  | .scanComplete => Sys2Proof.Machine.execScanComplete s
  | .rqstbLeadingEdge => Sys2Proof.Machine.execRqstbLeadingEdge s
  | .antakeLeadingEdge => Sys2Proof.Machine.execAntakeLeadingEdge s
  | .resetRelease => Sys2Proof.Machine.execResetRelease s
  | .requestTakeByBlock => Sys2Proof.Machine.execRequestTakeByBlock s

end Sys2Proof.Machine
end

