-- ==== Sys2Proof/Safety.lean ====
section
/-! DEFINITION. What counts as a sound state of the 4316, in the terms the statements use: the laws that the spec's
rules set apart, and the links between the blocks that they rest on. -/

namespace Sys2Proof.Machine

/-! ### Laws of one record -/

/-- R8: remaining does not exceed the life limit, and a slot with life mode COUNT or TIME and remaining 0 has condition
WORN or DAMAGED. -/
abbrev Record.lifeLaw (r : Record) : Prop :=
  r.condition ≠ .vacant →
    r.remaining ≤ r.limit ∧
      (r.mode ≠ .uncounted → r.remaining = 0 → r.condition = .worn ∨ r.condition = .damaged)

/-- R12: a VACANT slot has every other persistent field at its zero value. -/
abbrev Record.vacantLaw (r : Record) : Prop := r.condition = .vacant → r = Record.vacant

/-- R4: the ranges of the numbers of a non-vacant slot; the charged total is held at its greatest value (R8, R20). -/
abbrev Record.rangeLaw (r : Record) : Prop :=
  r.condition ≠ .vacant →
    (1 ≤ r.tool ∧ r.tool ≤ 2047) ∧ (1 ≤ r.rank ∧ r.rank ≤ 8) ∧ (1 ≤ r.limit ∧ r.limit ≤ 65535) ∧
      r.warn ≤ r.limit ∧ r.charged ≤ 16777215

/-- The record laws together. -/
abbrev Record.sound (r : Record) : Prop := r.lifeLaw ∧ r.vacantLaw ∧ r.rangeLaw

/-- A copy whose fields, where it is valid, satisfy `P`. -/
def Copy.satisfies {α : Type} (P : α → Prop) : Copy α → Prop
  | .valid x _ => P x
  | .erased => True
  | .invalid => True

/-- Both copies of a pair satisfy `P`. -/
def CopyPair.satisfies {α : Type} (P : α → Prop) (c : CopyPair α) : Prop := c.a.satisfies P ∧ c.b.satisfies P

/-- The snapshot of a flight is a sound record. -/
def Snapshot.sound : Snapshot → Prop
  | .slot _ r _ => r.sound
  | .cfg _ => True

/-- Every record of the part is sound: in the image, in the valid copies of the array, and in the flight. -/
structure State.RecordsSound (s : State) : Prop where
  image : ∀ k : Slot, (s.record k).sound
  copies : ∀ k : Slot, (s.slotCopies[k]).satisfies Record.sound
  flight : ∀ f, s.flight = some f → f.content.sound

/-! ### The commit queue -/

/-- R151: the queue never holds the same entry twice. -/
abbrev State.QueueDistinct (s : State) : Prop := (s.queue.urgent ++ s.queue.normal).Nodup

/-- R160: a commit is in flight in RUNNING alone, with an attempt count from 1 to 3. -/
abbrev State.FlightRuns (s : State) : Prop :=
  ∀ f, s.flight = some f → s.opState = .running ∧ 1 ≤ f.attempt ∧ f.attempt ≤ Config.attemptMax

/-- Slot `k` waits for a commit: it stands in the queue or is in flight. -/
def State.awaitsCommit (s : State) (k : Slot) : Bool := s.queue.holds (.slot k) || s.inFlight (.slot k)

/-- R15, first law: a slot whose DIRTY is clear has the persistent fields of its newest valid copy, or, without one, is
VACANT with both copies erased. -/
def State.Durable (s : State) (k : Slot) : Prop :=
  match (s.slotCopies[k]).newestValid with
  | some (_, r) => s.record k = r
  | none => s.record k = Record.vacant ∧ (s.slotCopies[k]).bothErased = true

/-- The flight writes the older copy of its slot, and carries the image's fields when no entry of the slot stands in
the queue (R150, R153, R155). -/
def State.FlightSound (s : State) (f : Flight) : Prop :=
  match f.content with
  | .slot k r _ =>
    f.target = targetOf (s.newest[k]) ∧ f.gen = generationOf (s.newest[k]) ∧
      (s.queue.holds (.slot k) = false → r = s.record k)
  | .cfg _ => f.target = targetOf s.cfgNewest ∧ f.gen = generationOf s.cfgNewest

/-- The commit law: while the image is held, DIRTY is set exactly on the slots that wait for a commit or carry
STORE_FAULT (R137), a clear DIRTY means durable (R15), and the Commit Engine's records of newest copies are those of
the array (R150). While it is not held nothing waits (R160). -/
structure State.CommitSound (s : State) : Prop where
  distinct : s.QueueDistinct
  runs : s.FlightRuns
  idle : s.imageHeld = false →
    s.opState ≠ .running ∧ s.opState ≠ .frozen ∧ s.exchange = .idle ∧
      s.queue = { urgent := [], normal := [] } ∧ s.flight = none
  dirty : s.imageHeld = true → ∀ k : Slot,
    (s.slot k).dirty = (s.awaitsCommit k || (s.slot k).storeFault)
  durable : s.imageHeld = true → ∀ k : Slot, (s.slot k).dirty = false → s.Durable k
  newest : s.imageHeld = true → ∀ k : Slot, s.newest[k] = ((s.slotCopies[k]).newestValid).map Prod.fst
  cfgNewest : s.imageHeld = true → s.cfgNewest = s.cfgCopies.newestValid.map Prod.fst
  flight : ∀ f, s.flight = some f → s.FlightSound f

/-! ### The magazine, the spindle and the exchange -/

/-- The open exchange whose slots are in transit: OFFERED or RESERVED. -/
def Exchange.moving? : Exchange → Option OpenExchange
  | .offered x => some x
  | .reserved x _ => some x
  | _ => none

/-- The exchange that is SUSPECT. -/
def Exchange.suspect? : Exchange → Option OpenExchange
  | .suspect x _ => some x
  | _ => none

/-- The two ends of a movement are two slots. -/
def Movement.distinct (m : Movement) : Prop := m.named.Nodup

/-- R74, R75: the locations that the context states are those of the image, no named slot is VACANT, and no other slot
is in transit; the spindle is EXCHANGING exactly while slots are in transit, and UNKNOWN while SUSPECT. -/
structure State.ExchangeSound (s : State) : Prop where
  distinct : ∀ x, s.exchange.open? = some x → x.movement.distinct
  occupied : ∀ x, s.exchange.open? = some x → ∀ k ∈ x.movement.named, (s.record k).occupied = true
  movingIn : ∀ k p, (s.record k).location = .transitIn p ↔
    ∃ x, s.exchange.moving? = some x ∧ x.movement.incoming = some (k, p)
  movingBack : ∀ k p, (s.record k).location = .transitBack p ↔
    ∃ x, s.exchange.moving? = some x ∧ x.movement.outgoing = some (k, p)
  doubted : ∀ x, s.exchange.suspect? = some x → ∀ k p,
    (x.movement.incoming = some (k, p) ∨ x.movement.outgoing = some (k, p)) →
      (s.record k).location = .unknown (some p)
  exchanging : s.spindle = .exchanging ↔ s.exchange.moving? ≠ none
  suspected : s.exchange.suspect? ≠ none → s.spindle = .unknown

/-- R61: the spindle is HOLDS(k) exactly when slot k has location SPINDLE; so at most one slot has it. -/
def State.SpindleSound (s : State) : Prop :=
  ∀ k : Slot, (s.record k).location = .spindle ↔ s.spindle = .holds k

/-- Slot `j` is a non-vacant slot below `k` with the tool number and rank of `k`, in a table of records (R35, R171). -/
abbrev ranksBelow (f : Slot → Record) (j k : Slot) : Prop :=
  j < k ∧ (f j).condition ≠ .vacant ∧ (f j).tool = (f k).tool ∧ (f j).rank = (f k).rank

/-- R35: of two non-vacant slots with one tool number and rank the higher has HOLD set. -/
def State.RanksSound (s : State) : Prop :=
  ∀ j k : Slot, (s.record k).condition ≠ .vacant → ranksBelow s.record j k → (s.record k).hold = true

/-- R74, R76: the next-tag counter and the tag of an open exchange are 1 to 15. -/
def State.TagsSound (s : State) : Prop :=
  (1 ≤ s.nextTag ∧ s.nextTag ≤ 15) ∧ ∀ x, s.exchange.open? = some x → 1 ≤ x.tag ∧ x.tag ≤ 15

/-- The image, the exchange context and the spindle agree (R12, R61, R74, R75), over sound records (R4, R8) with the law
of the sister groups (R35) and tags in their range (R76). -/
structure State.TableSound (s : State) : Prop where
  records : s.RecordsSound
  exchange : s.ExchangeSound
  spindle : s.SpindleSound
  ranks : s.RanksSound
  tags : s.TagsSound

/-- The pocket in which slot `k` stands, none outside location POCKET. -/
def State.pocketNow (s : State) (k : Slot) : Option Nat :=
  match (s.record k).location with
  | .pocket p => some p
  | _ => none

/-- The pocket in which slot `k` would stand after a revert of the open exchange (R83). -/
def State.pocketIfReverted (s : State) (k : Slot) : Option Nat :=
  match s.exchange.open? with
  | none => s.pocketNow k
  | some x =>
    match x.movement.incoming with
    | some (i, p) => if i = k then some p else s.pocketNow k
    | none => s.pocketNow k

/-- The pocket in which slot `k` would stand after the completed movement of the open exchange (R86). -/
def State.pocketIfMoved (s : State) (k : Slot) : Option Nat :=
  match s.exchange.open? with
  | none => s.pocketNow k
  | some x =>
    match x.movement.outgoing with
    | some (o, p) => if o = k then some p else s.pocketNow k
    | none => s.pocketNow k

/-- The laws of R56 and R64 for an assignment of slots to pockets in a ring of `P` pockets: at most one slot in a
pocket, every pocket in the ring, and no slot beside a LARGE one. -/
structure Lawful (P : Nat) (size : Slot → Size) (place : Slot → Option Nat) : Prop where
  one : ∀ j k p, place j = some p → place k = some p → j = k
  ring : ∀ k p, place k = some p → 1 ≤ p ∧ p ≤ P
  large : ∀ j k p, place j = some p → size j = .large →
    place k ≠ some (ringBefore P p) ∧ place k ≠ some (ringAfter P p)

/-- R10, R55: a location that names a pocket names one of the pockets numbered from 1. -/
def Record.numbered (r : Record) : Prop := ∀ p, r.location.pocketPart = some p → 1 ≤ p

/-- R55: the values lie in the ranges of the configuration record. -/
def Configuration.ranged (c : Configuration) : Prop :=
  8 ≤ c.pockets ∧ c.pockets ≤ 120 ∧ 1 ≤ c.timeout ∧ c.timeout ≤ 255

/-- What a flight would write names pockets from 1 on, or values in their ranges. -/
def Snapshot.ranged : Snapshot → Prop
  | .slot _ r _ => r.numbered
  | .cfg c => c.ranged

/-- R56 and R64 hold of the magazine as it stands, as a revert of the open exchange would leave it and as its
completion would leave it (R83, R86, R93: "valid without a test"); pocket numbers and configuration values lie in
their ranges (R10, R55) in the image, in the valid copies of the array and in the flight; in the image no pocket part
and no home pocket lies beyond the ring (R4, R71); and a running timer has 1 to 255 seconds (R55, R74). -/
structure State.PlacesSound (s : State) : Prop where
  now : Lawful s.pockets (fun k => (s.record k).size) s.pocketNow
  reverted : Lawful s.pockets (fun k => (s.record k).size) s.pocketIfReverted
  moved : Lawful s.pockets (fun k => (s.record k).size) s.pocketIfMoved
  numbered : ∀ k : Slot, (s.record k).numbered
  copies : ∀ k : Slot, (s.slotCopies[k]).satisfies Record.numbered
  ring : ∀ c, s.config = some c → c.ranged
  cfgCopies : s.cfgCopies.satisfies Configuration.ranged
  flight : ∀ f, s.flight = some f → f.content.ranged
  within : ∀ k : Slot,
    (s.record k).home ≤ s.pockets ∧ ∀ p, (s.record k).location.pocketPart = some p → p ≤ s.pockets
  timer : ∀ x n, s.exchange = .reserved x n → 1 ≤ n ∧ n ≤ 255

/-! ### The link -/

/-- R96, R99, R102: what the phase says about the latch, the answer sequence, the current position and the two
acceptance marks. -/
def Link.Sound (l : Link) : Prop :=
  match l.phase with
  | .idle => l.latch = none ∧ l.answers = [] ∧ l.rqMark = false ∧ l.anMark = false
  | .receiving => l.latch = none ∧ l.answers = [] ∧ l.rqMark = true ∧ l.anMark = false
  | .handedOn => l.latch.isSome = true ∧ l.answers = [] ∧ l.rqMark = false ∧ l.anMark = false
  | .answering =>
    l.latch.isSome = true ∧ l.rqMark = false ∧ l.answers.length ≤ 2 ∧ l.position < l.answers.length ∧
      (l.status = .held ↔ l.answers[l.position]? = some none) ∧ (l.status = .taking ↔ l.anMark = true) ∧
      (∀ a, l.answers[l.position]? = some (some a) → l.an = a.word)

/-- In OFF every volatile part is lost: it stands at the values of log 2 (R167). -/
def State.OffBlank (s : State) : Prop := s.opState = .off → s = s.volatileCleared .off false

/-! ### The vocabulary of the statements -/

/-- The request word that a command of the link strobes in: its kind and operand (R97, R98). -/
def request? : Instr → Option (BitVec 4 × BitVec 12)
  | .call o _ => some (1, o)
  | .done o => some (2, o)
  | .abandon o => some (3, o)
  | .charge o _ => some (4, o)
  | .damage o _ => some (5, o)
  | .putaway o _ => some (6, o)
  | .probe o _ => some (7, o)
  | .unknownRequest k o => some (k, o)
  | _ => none

/-- The kinds and operands that the decode hands on (R98, the table of kinds). -/
def requestFits (kind : BitVec 4) (operand : BitVec 12) : Prop :=
  (kind = 1 ∧ 1 ≤ operand.toNat ∧ operand.toNat ≤ 2047) ∨
  ((kind = 2 ∨ kind = 3) ∧ 1 ≤ operand.toNat ∧ operand.toNat ≤ 15) ∨
  kind = 4 ∨
  ((kind = 5 ∨ kind = 6) ∧ operand.toNat = 0) ∨
  (kind = 7 ∧ operand.toNat ≤ 2047)

/-- The code that a host command writes to COMMAND (R117). -/
def hostCode? : Instr → Option Byte
  | .fetch => some 1
  | .new => some 2
  | .store => some 3
  | .discard => some 4
  | .release => some 5
  | .locate => some 6
  | .resolveMoved => some 7
  | .resolveNotMoved => some 8
  | .declareSpindleEmpty => some 9
  | .retryStore => some 10
  | .flush => some 11
  | .configStore => some 12
  | .unknownCommand c => some c
  | _ => none

/-- The writes of the host that are no command: register-window and flag-space writes (R115, R136, R143, R147). -/
def plainHostWrite : Instr → Bool
  | .statusWrite _ => true
  | .intPendingWrite _ => true
  | .intEnableWrite _ => true
  | .registerWrite _ _ => true
  | .holdSet _ => true
  | .holdClear _ => true
  | .measureSet _ => true
  | .measureClear _ => true
  | .attnSet _ => true
  | .attnClear _ => true
  | .dirtyWrite _ _ => true
  | _ => false

/-- The edges of the two strobes of the link (R99, R100, R103, R104). -/
def strobeEdge : Instr → Bool
  | .rqstbLeadingEdge => true
  | .strobeWhileBusy => true
  | .antakeLeadingEdge => true
  | .takeWithoutAnswer => true
  | .answerTake => true
  | c => (request? c).isSome

/-- A trailing edge of /RQSTB finds the part RUNNING, /RESET released and the acceptance mark set. -/
structure State.RequestArrives (s : State) : Prop where
  running : s.opState = .running
  released : s.resetLow = false
  mark : s.link.rqMark = true

/-- The host bus is served and the command state is IDLE (R113, R117). -/
structure State.CommandTaken (s : State) : Prop where
  on : s.opState ≠ .off
  released : s.resetLow = false
  idle : s.host.busy = false

/-- The link after a request answered by one decided word (R98, R102). -/
def Link.answered (l : Link) (kind : BitVec 4) (operand : BitVec 12) (a : Answer) : Link :=
  { phase := .answering, latch := some (kind ++ operand), answers := [some a], position := 0, status := .shown,
    rqMark := false, anMark := l.anMark, leftRunning := false, an := a.word, fault := l.fault }

/-- The link after a request whose first word is decided and whose second is withheld (R79, R102). -/
def Link.opened (l : Link) (kind : BitVec 4) (operand : BitVec 12) (a : Answer) : Link :=
  { l.answered kind operand a with answers := [some a, none] }

/-- The link after a DONE or ABANDON whose answer is withheld (R102). -/
def Link.waiting (l : Link) (kind : BitVec 4) (operand : BitVec 12) : Link :=
  { phase := .answering, latch := some (kind ++ operand), answers := [none], position := 0, status := .held,
    rqMark := false, anMark := l.anMark, leftRunning := false, an := l.an, fault := l.fault }

/-- The state after a command that completes with a result and changes nothing else (R117, R144). -/
def State.commandDone (s : State) (code : Byte) (r : Result) : State :=
  { s with host :=
    { s.host with command := code, result := r, causes := { s.host.causes with command := true } } }

/-- What a claim makes of the image and the queue (R3, R14, R17, R152): only slot `k` changes, and only when a
persistent field does. -/
structure State.Claimed (s t : State) (k : Slot) (new : Record) (cls : CommitClass) : Prop where
  others : ∀ j, j ≠ k → t.slot j = s.slot j
  slot : t.slot k = if new = s.record k then s.slot k else
    { fields := new, attn := (s.slot k).attn || entersAttention (s.record k) new, dirty := true,
      storeFault := (s.slot k).storeFault, stamp := (s.slot k).stamp + 1 }
  queue : t.queue = if new = s.record k then s.queue else s.queue.hand (.slot k) cls

/-- What an exchange claim makes of the image and the queue: each listed slot takes its new fields, its stamp advances
by 1, DIRTY is set, and it is handed urgent in the order of the list; ATTN is set at the entries of R14 (R78, R83, R86,
R90). -/
structure State.Rewritten (s t : State) (ws : List (Slot × Record)) : Prop where
  named : ∀ k r, (k, r) ∈ ws → t.slot k =
    { fields := r, attn := (s.slot k).attn || entersAttention (s.record k) r, dirty := true,
      storeFault := (s.slot k).storeFault, stamp := (s.slot k).stamp + 1 }
  others : ∀ k, k ∉ ws.map Prod.fst → t.slot k = s.slot k
  queue : t.queue = ws.foldl (fun q w => q.hand (.slot w.1) .urgent) s.queue

/-- The slots of a movement, the incoming slot first, with the fields that an exchange claim gives them from their
pocket and their fields before. -/
def State.movedFields (s : State) (m : Movement) (inward outward : Nat → Record → Record) : List (Slot × Record) :=
  (m.incoming.toList.map (fun e => (e.1, inward e.2 (s.record e.1)))) ++
    (m.outgoing.toList.map (fun e => (e.1, outward e.2 (s.record e.1))))

/-- The fields of the named slots after a completed movement (R86, R93). -/
def State.fieldsIfMoved (s : State) (m : Movement) : List (Slot × Record) :=
  s.movedFields m (fun _ r => { r with location := .spindle }) (fun p r => { r with location := .pocket p, home := p })

/-- The fields of the named slots after a revert (R83). -/
def State.fieldsIfReverted (s : State) (m : Movement) : List (Slot × Record) :=
  s.movedFields m (fun p r => { r with location := .pocket p }) (fun _ r => { r with location := .spindle })

/-- The fields of the named slots after a suspicion (R90). -/
def State.fieldsIfSuspected (s : State) (m : Movement) : List (Slot × Record) :=
  s.movedFields m (fun p r => { r with location := .unknown (some p) })
    (fun p r => { r with location := .unknown (some p) })

/-- The fields of the named slots after an open (R78). -/
def State.fieldsIfOpened (s : State) (m : Movement) : List (Slot × Record) :=
  s.movedFields m (fun p r => { r with location := .transitIn p }) (fun p r => { r with location := .transitBack p })

/-- The Commit Engine and the Exchange Controller wait for the commits of the movement's slots: a confirmation record
with no slot marked, the confirm-from stamps at the stamps of the claim, and a flight of a named slot told so (R80,
R156, R158). `s` is the state before the claim, `t` the state after it. -/
structure State.Awaited (s t : State) (m : Movement) (w : Withheld) : Prop where
  record : t.confirmation = some { withheld := w, waiting := m.named.map (fun k => (k, false)), failed := none }
  stamps : ∀ k : Slot, t.confirmFrom[k] = if k ∈ m.named then some (t.slot k).stamp else s.confirmFrom[k]
  flight : t.flight = s.flight.map (fun f =>
    if ∃ k ∈ m.named, f.content.entry = .slot k then { f with confirmSet := true } else f)

/-- R112: what a supply fall or /RESET makes of the mark of a lost answer, from the state before it to the state after
it. The phase ANSWERING is the time between a decision and the take of its words (R96). -/
structure State.AnswerMarked (s t : State) : Prop where
  parted : s.link.phase = .answering → t.lostAnswer = s.link.latch
  whole : s.link.phase ≠ .answering → t.lostAnswer = s.lostAnswer

/-- The state after a request has been handed on to its block, which has not yet taken it (R100, R101). -/
def State.handed (s : State) (kind : BitVec 4) (operand : BitVec 12) : State :=
  { s with link :=
    { s.link with phase := .handedOn, latch := some (kind ++ operand), rqMark := false, leftRunning := false } }

/-- The link after its withheld last position has been filled with `a` (R105): presented when that position is current,
kept for its turn otherwise. -/
def Link.filled (l : Link) (a : Answer) : Link :=
  if l.position + 1 = l.answers.length then
    { l with answers := l.answers.dropLast ++ [some a], status := .shown, an := a.word }
  else { l with answers := l.answers.dropLast ++ [some a] }

/-- `a` is the first element of the list that satisfies `P`. -/
def First {α : Type} (P : α → Prop) (l : List α) (a : α) : Prop :=
  ∃ before after, l = before ++ a :: after ∧ P a ∧ ∀ b ∈ before, ¬ P b

/-- R39, first condition: FRESH, USED or NEAR_END. -/
def Record.alive (r : Record) : Prop := r.condition = .fresh ∨ r.condition = .used ∨ r.condition = .nearEnd

/-- R39: the slot is selectable. -/
def Record.eligible (r : Record) : Prop :=
  r.alive ∧ r.hold = false ∧ ((∃ p, r.location = .pocket p) ∨ r.location = .spindle)

/-- R40: a spindle choice. -/
def Record.spindleChoice (r : Record) : Prop := r.eligible ∧ r.location = .spindle

/-- R40: a pocket candidate. -/
def Record.pocketCandidate (r : Record) : Prop := r.eligible ∧ ∃ p, r.location = .pocket p

/-- R40: a waiting sister. -/
def Record.waitingSister (r : Record) : Prop := r.alive ∧ ¬ r.eligible

/-- R55: the ring neighbour before pocket `p` of 1 to `P`. -/
def neighbourBefore (P p : Nat) : Nat := if p = 1 then P else p - 1

/-- R55: the ring neighbour after pocket `p` of 1 to `P`. -/
def neighbourAfter (P p : Nat) : Nat := if p = P then 1 else p + 1

/-- The steps from pocket `src` on round the ring to pocket `q` (R67, R68). -/
def stepsRound (P src q : Nat) : Nat := if src ≤ q then q - src else q + P - src

/-! ### The vocabulary of the pocket report -/

/-- R56: a non-vacant slot with location POCKET p. -/
def State.StandsIn (s : State) (k : Slot) (p : Nat) : Prop :=
  (s.record k).condition ≠ .vacant ∧ (s.record k).location = .pocket p

/-- R57: a non-vacant slot with location TRANSIT_IN(p) or TRANSIT_BACK(p). -/
def State.ReservesPocket (s : State) (k : Slot) (p : Nat) : Prop :=
  (s.record k).condition ≠ .vacant ∧ ((s.record k).location = .transitIn p ∨ (s.record k).location = .transitBack p)

/-- R58: a non-vacant slot with location UNKNOWN and pocket part p. -/
def State.DoubtsPocket (s : State) (k : Slot) (p : Nat) : Prop :=
  (s.record k).condition ≠ .vacant ∧ (s.record k).location = .unknown (some p)

/-- R59: a LARGE tool stands in a ring neighbour of p, is to be received there, or is marked there. -/
def State.LargeBeside (s : State) (p : Nat) : Prop :=
  ∃ k q, (s.record k).size = .large ∧ (q = neighbourBefore s.pockets p ∨ q = neighbourAfter s.pockets p) ∧
    (s.StandsIn k q ∨ s.ReservesPocket k q ∨ s.DoubtsPocket k q)

/-! ### The vocabulary of the scan: the table as loaded, and the table as repaired -/

/-- R170, R171: what the repairs do to the records. A vacant slot is left; of a non-vacant one the location alone may
change, to UNKNOWN with its pocket part where that lies in the ring, the home pocket to 0 where it lay beyond, and HOLD
where a lower slot has the tool number and rank. -/
def ScanRepaired (P : Nat) (loaded final : Slot → Record) : Prop :=
  ∀ k, ((loaded k).condition = .vacant → final k = loaded k) ∧
    ((loaded k).condition ≠ .vacant →
      final k = { loaded k with
        location := (final k).location, home := if P < (loaded k).home then 0 else (loaded k).home
        hold := (final k).hold } ∧
      ((final k).hold = true ↔ (loaded k).hold = true ∨ ∃ j, ranksBelow loaded j k) ∧
      ((final k).location = (loaded k).location ∨
        ∃ q, (final k).location = .unknown q ∧ ∀ p, q = some p ↔ (loaded k).location.pocketPart = some p ∧ p ≤ P))

/-- R170, pass 5, over the pockets that the first four passes leave held. The LARGE slots are taken in slot number, and
`examined` are those that still hold their pocket p at their turn. Examining L, a higher-numbered holder of the neighbour
before p is repaired; a lower-numbered one has L repaired, and the examination ends; then the same of the neighbour after
p. The clauses settle `examined` and `repaired` slot by slot from slot 0 up: those of k speak of the slots below k. -/
def LargePass (P : Nat) (large : Slot → Prop) (holds : Slot → Nat → Prop) (repaired : Slot → Prop) : Prop :=
  ∃ examined : Slot → Prop,
    let stillHolds (j : Slot) (q : Nat) := holds j q ∧ ¬ repaired j
    let repairs (L k : Slot) := examined L ∧ L < k ∧ ∃ p, holds L p ∧
      (holds k (neighbourBefore P p) ∨
        (holds k (neighbourAfter P p) ∧ ∀ j, j < L → ¬ stillHolds j (neighbourBefore P p)))
    (∀ k, examined k ↔ large k ∧ (∃ p, holds k p) ∧ ∀ L, ¬ repairs L k) ∧
    (∀ k, repaired k ↔ (∃ L, repairs L k) ∨
      (examined k ∧ ∃ p j, holds k p ∧ j < k ∧
        (stillHolds j (neighbourBefore P p) ∨ stillHolds j (neighbourAfter P p))))

/-- R170, R171, R172: the queue that the scan's handings build. The urgent part holds the location repairs in pass
order, each of the first four passes in slot order; the normal part holds the field repairs that did not fall on a slot
already urgent, in pass order and in slot order. `LargePass` says which slots the fifth pass repairs, where the pockets
loaded are numbered from 1 as R10 and R55 number them; the order within it is log 30 and not said here. -/
def ScanQueued (P : Nat) (loaded final : Slot → Record) (q : CommitQueue) : Prop :=
  let tool (k : Slot) := (loaded k).condition ≠ .vacant
  let at_ (k : Slot) := (loaded k).location
  ∃ transit beyond shared spindle large home ranks : List Slot,
    q.urgent = (transit ++ beyond ++ shared ++ spindle ++ large).map .slot ∧ q.normal = (home ++ ranks).map .slot ∧
    (∀ l ∈ [transit, beyond, shared, spindle, home, ranks], l.Pairwise (· < ·)) ∧ large.Nodup ∧
    (∀ k, k ∈ transit ↔ tool k ∧ ∃ p, at_ k = .transitIn p ∨ at_ k = .transitBack p) ∧
    (∀ k, k ∈ beyond ↔ tool k ∧ ∃ p, P < p ∧ (at_ k = .pocket p ∨ at_ k = .unknown (some p))) ∧
    (∀ k, k ∈ shared ↔ tool k ∧ ∃ p, p ≤ P ∧ at_ k = .pocket p ∧ ∃ j, j < k ∧ tool j ∧ at_ j = .pocket p) ∧
    (∀ k, k ∈ spindle ↔ tool k ∧ at_ k = .spindle ∧ ∃ j, j < k ∧ tool j ∧ at_ j = .spindle) ∧
    (∀ k, k ∈ large ↔ tool k ∧ ∃ p, p ≤ P ∧ at_ k = .pocket p ∧ (∀ j, j < k → tool j → at_ j ≠ .pocket p) ∧
      (final k).location ≠ .pocket p) ∧
    ((∀ k, tool k → (loaded k).numbered) → LargePass P (fun k => (loaded k).size = .large)
      (fun k p => tool k ∧ p ≤ P ∧ at_ k = .pocket p ∧ ∀ j, j < k → tool j → at_ j ≠ .pocket p) (· ∈ large)) ∧
    (∀ k, .slot k ∈ q.urgent ↔ (final k).location ≠ at_ k) ∧
    (∀ k, k ∈ home ↔ tool k ∧ P < (loaded k).home ∧ .slot k ∉ q.urgent) ∧
    (∀ k, k ∈ ranks ↔ tool k ∧ (loaded k).hold = false ∧ (∃ j, ranksBelow loaded j k) ∧ .slot k ∉ q.urgent ∧ k ∉ home)

/-- R170, R171, R172: the flags after the scan, slot by slot: ATTN where it was loaded set, on every repaired slot, on
every slot that has a lower one with its tool number and rank, and on every NEAR_END, WORN, DAMAGED or UNKNOWN one;
DIRTY where it was loaded set and on every repaired slot; STORE_FAULT and the stamp as loaded. -/
def ScanFlagged (loaded final : Image) : Prop :=
  ∀ k : Slot, let r := (final[k]).fields
    ((final[k]).attn = true ↔ (loaded[k]).attn = true ∨ r ≠ (loaded[k]).fields ∨
      (r.condition ≠ .vacant ∧ ∃ j, ranksBelow (fun i => (loaded[i]).fields) j k) ∨
      (r.condition = .nearEnd ∨ r.condition = .worn ∨ r.condition = .damaged) ∨
      (r.condition ≠ .vacant ∧ ∃ p, r.location = .unknown p)) ∧
    ((final[k]).dirty = true ↔ (loaded[k]).dirty = true ∨ r ≠ (loaded[k]).fields) ∧
    (final[k]).storeFault = (loaded[k]).storeFault ∧ (final[k]).stamp = (loaded[k]).stamp

/-! ### The vocabulary of STORE -/

/-- The location that the work record's kind and pocket codes spell, with the normalisations of R124. -/
def WorkFields.location (w : WorkFields) : Location :=
  if w.locKind.toNat = 1 then .pocket w.locPocket.toNat
  else if w.locKind.toNat = 2 then .spindle
  else if w.locKind.toNat = 3 then .out
  else if w.locKind.toNat = 4 then .transitIn w.locPocket.toNat
  else if w.locKind.toNat = 5 then .transitBack w.locPocket.toNat
  else .unknown (if w.locPocket.toNat = 0 then none else some w.locPocket.toNat)

/-- R32 and R124: the values that step 4 accepts, for a pocket count and the image's location of the slot. -/
def WorkFields.Accepted (w : WorkFields) (P : Nat) (image : Location) : Prop :=
  (1 ≤ w.tool.toNat ∧ w.tool.toNat ≤ 2047) ∧ (1 ≤ w.rank.toNat ∧ w.rank.toNat ≤ 8) ∧ w.size.toNat ≤ 1 ∧
    w.mode.toNat ≤ 2 ∧ w.directive.toNat ≤ 2 ∧ 1 ≤ w.limit.toNat ∧ w.remaining.toNat ≤ w.limit.toNat ∧
    w.warn.toNat ≤ w.limit.toNat ∧ (w.directive.toNat = 1 → w.remaining.toNat = w.limit.toNat) ∧
    w.home.toNat ≤ P ∧
    ((w.locKind.toNat = 1 ∧ 1 ≤ w.locPocket.toNat ∧ w.locPocket.toNat ≤ P) ∨
      w.locKind.toNat = 2 ∨ w.locKind.toNat = 3 ∨
      ((w.locKind.toNat = 4 ∨ w.locKind.toNat = 5) ∧ image.kindCode = w.locKind.toNat ∧
        image.pocketPart = some w.locPocket.toNat) ∨
      (w.locKind.toNat = 6 ∧ w.locPocket.toNat ≤ P))

/-- The fields that an accepted STORE of the work record stores over `before` (R28–R30, R127). -/
def WorkFields.toStore (w : WorkFields) (before : Record) : Record :=
  { condition :=
      if w.directive.toNat = 2 then .damaged
      else if w.directive.toNat = 1 then .fresh
      else if w.mode.toNat ≠ 0 ∧ w.remaining.toNat = 0 then .worn
      else if before.condition = .fresh then .fresh
      else if 0 < w.warn.toNat ∧ w.remaining.toNat ≤ w.warn.toNat then .nearEnd
      else .used
    tool := w.tool.toNat
    rank := w.rank.toNat
    size := if w.size.toNat = 0 then .normal else .large
    mode := if w.mode.toNat = 0 then .uncounted else if w.mode.toNat = 1 then .count else .time
    limit := w.limit.toNat
    remaining := w.remaining.toNat
    warn := w.warn.toNat
    charged := if w.directive.toNat = 1 ∨ before.condition = .vacant then 0 else before.charged
    location := w.location
    home := w.home.toNat
    hold := w.flags.getLsbD 0
    measure := w.flags.getLsbD 1 }

/-- Step 3 of STORE (R123): the slot has changed since the FETCH, or is no longer VACANT since the NEW. -/
def State.Stale (s : State) (k : Slot) : Prop :=
  (∃ t, s.host.workState = .fetched k t ∧ (s.slot k).stamp ≠ t) ∨
    (s.host.workState = .new k ∧ (s.record k).condition ≠ .vacant)

/-- Step 5 of STORE (R35, R125): another non-vacant slot holds the tool number and rank. -/
def State.RankShared (s : State) (k : Slot) (new : Record) : Prop :=
  ∃ j, j ≠ k ∧ (s.record j).condition ≠ .vacant ∧ (s.record j).tool = new.tool ∧ (s.record j).rank = new.rank

/-- The slot is named by an exchange that is OFFERED, RESERVED or SUSPECT (R94). -/
def State.Named (s : State) (k : Slot) : Prop := ∃ x, s.exchange.open? = some x ∧ k ∈ x.movement.named

/-- Step 6 of STORE (R94, R125): a named slot would change its tool number, rank, size or location. -/
def State.StoreLocked (s : State) (k : Slot) (new : Record) : Prop :=
  s.Named k ∧ (new.tool ≠ (s.record k).tool ∨ new.rank ≠ (s.record k).rank ∨ new.size ≠ (s.record k).size ∨
    new.location ≠ (s.record k).location)

/-- Step 7 of STORE (R65, R126): the slot goes to a pocket it is not in, or changes size in its own, and may not be
placed there. -/
def State.StoreConflicts (s : State) (k : Slot) (new : Record) : Prop :=
  ∃ p, new.location = .pocket p ∧ ((s.record k).location ≠ .pocket p ∨ new.size ≠ (s.record k).size) ∧
    s.placeable [k] new.size p = false

/-- Step 8 of STORE (R62, R126): the spindle HOLDS another slot, is EXCHANGING, or is UNKNOWN while SUSPECT. -/
def State.StoreSpindleTaken (s : State) (k : Slot) (new : Record) : Prop :=
  new.location = .spindle ∧
    ((∃ j, j ≠ k ∧ s.spindle = .holds j) ∨ s.spindle = .exchanging ∨
      (s.spindle = .unknown ∧ s.exchange.suspect? ≠ none))

/-- The work record is FETCHED or NEW for slot `k` (R119). -/
def State.WorkOn (s : State) (k : Slot) : Prop :=
  (∃ t, s.host.workState = .fetched k t) ∨ s.host.workState = .new k

/-- The eight steps of STORE pass for slot `k` with the fields `new` (R122–R126). -/
structure State.StoreAccepted (s : State) (k : Slot) (new : Record) : Prop where
  work : s.WorkOn k
  running : s.opState = .running
  fresh : ¬ s.Stale k
  range : s.host.work.Accepted s.pockets (s.record k).location
  fields : new = s.host.work.toStore (s.record k)
  rank : ¬ s.RankShared k new
  unlocked : ¬ s.StoreLocked k new
  placed : ¬ s.StoreConflicts k new
  spindle : ¬ s.StoreSpindleTaken k new

/-- What a FETCH of a slot places in the field positions of the work record (R120, R27). -/
structure WorkFields.CopyOf (w : WorkFields) (x : SlotState) : Prop where
  directive : w.directive = if x.fields.condition = .damaged then 2 else 0
  condition : w.condition = match x.fields.condition with
    | .vacant => 0
    | .fresh => 1
    | .used => 2
    | .nearEnd => 3
    | .worn => 4
    | .damaged => 5
  tool : w.tool = BitVec.ofNat 16 x.fields.tool
  rank : w.rank = BitVec.ofNat 8 x.fields.rank
  size : w.size = if x.fields.size = .large then 1 else 0
  mode : w.mode = if x.fields.mode = .uncounted then 0 else if x.fields.mode = .count then 1 else 2
  limit : w.limit = BitVec.ofNat 16 x.fields.limit
  remaining : w.remaining = BitVec.ofNat 16 x.fields.remaining
  warn : w.warn = BitVec.ofNat 16 x.fields.warn
  charged : w.charged = BitVec.ofNat 24 x.fields.charged
  locKind : w.locKind = match x.fields.location with
    | .nowhere => 0
    | .pocket _ => 1
    | .spindle => 2
    | .out => 3
    | .transitIn _ => 4
    | .transitBack _ => 5
    | .unknown _ => 6
  locPocket : w.locPocket = match x.fields.location with
    | .pocket p => BitVec.ofNat 8 p
    | .transitIn p => BitVec.ofNat 8 p
    | .transitBack p => BitVec.ofNat 8 p
    | .unknown (some p) => BitVec.ofNat 8 p
    | _ => 0
  home : w.home = BitVec.ofNat 8 x.fields.home
  hold : w.flags.getLsbD 0 = x.fields.hold
  measure : w.flags.getLsbD 1 = x.fields.measure
  attn : w.indic.getLsbD 0 = x.attn
  dirty : w.indic.getLsbD 1 = x.dirty
  storeFault : w.indic.getLsbD 2 = x.storeFault

/-! ### The vocabulary of CONFIG_STORE and of the register window -/

/-- Case 2 of CONFIG_STORE (R71): the staged values lie in their ranges and spell the configuration. -/
def HostPort.Stages (h : HostPort) (c : Configuration) : Prop :=
  (8 ≤ h.stageP.toNat ∧ h.stageP.toNat ≤ 120) ∧ h.stagePolicy.toNat ≤ 1 ∧ 1 ≤ h.stageTimeout.toNat ∧
    c = { pockets := h.stageP.toNat, policy := if h.stagePolicy.toNat = 0 then .fixed else .swap,
          timeout := h.stageTimeout.toNat }

/-- Case 3 of CONFIG_STORE (R71): a location pocket part or a home pocket lies beyond the count. -/
def State.BeyondRing (s : State) (P : Nat) : Prop :=
  ∃ k, (s.record k).condition ≠ .vacant ∧
    ((∃ p, (s.record k).location.pocketPart = some p ∧ P < p) ∨ P < (s.record k).home)

/-- Case 4 of CONFIG_STORE (R71): a LARGE slot in POCKET p or UNKNOWN with p has a ring neighbour of p named by
another slot. -/
def State.Crowded (s : State) (P : Nat) : Prop :=
  ∃ k j p, k ≠ j ∧ (s.record k).condition ≠ .vacant ∧ (s.record j).condition ≠ .vacant ∧
    (s.record k).size = .large ∧
    ((s.record k).location = .pocket p ∨ (s.record k).location = .unknown (some p)) ∧
    ((s.record j).location.pocketPart = some (ringBefore P p) ∨
      (s.record j).location.pocketPart = some (ringAfter P p))

/-- The RW positions of the register window without behaviour of their own (R114). -/
def plainPositions : List Nat :=
  [0x06, 0x07, 0x08, 0x09, 0x11, 0x1C, 0x1D, 0x1E, 0x24, 0x26, 0x27, 0x28, 0x29, 0x2A, 0x2B, 0x2C, 0x2D, 0x2E, 0x2F,
   0x30, 0x34, 0x35, 0x36, 0x37]

/-- The queue after its head entry with its class has been taken out (R151, R153). -/
def CommitQueue.TakesHead (q : CommitQueue) (e : Entry) (cls : CommitClass) (rest : CommitQueue) : Prop :=
  (q.urgent = e :: rest.urgent ∧ rest.normal = q.normal ∧ cls = .urgent) ∨
    (q.urgent = [] ∧ q.normal = e :: rest.normal ∧ rest.urgent = [] ∧ cls = .normal)

end Sys2Proof.Machine
end

