-- ==== Sys2Proof/Certificates/Slice0/Obligations.lean ====
section
/-! DEFINITION. The statements about the 4316, each with the rules of spec/ that it formalises. A link request is stated
with the timing `.inStep`; RequestTakenLaterDecidesAlike carries each of them to the other timing (log 3), and
CommitAttemptFails carries a commit attempt from `.later` to `.inStep` (log 4). That no frame but those of SupplyFalls
and ResetActs lets the mark of a lost answer change, until the power is off, is the model's choice (log 28). -/

open Sys2Proof Sys2Proof.Machine

/-! ### The queue of commands -/

/-- A step takes the command at the front of the queue and has its effect on the state with the queue's rest; on an
empty queue the part idles (log 10; R2: a claim is taken whole, as one step). -/
def Obligations.StepRunsTheFrontCommand : Prop :=
  (∀ (c : Instr) (rest : List Instr) (s : State),
    step { s with pending := c :: rest } = exec c { s with pending := rest }) ∧
  (∀ s : State, s.pending = [] → step s = .next s)

/-- Every command answers with a next state, whatever the state it meets, and leaves the queue of commands as it was:
the spec gives each command an effect, a refusal that is an answer, or none at all. -/
def Obligations.EveryCommandCompletes : Prop :=
  ∀ (c : Instr) (s : State), ∃ t, exec c s = .next t ∧ t.pending = s.pending

/-! ### Power -/

/-- R163, R167, R1, R38, R61, R73, R76, R96, R134, R148, R160: from OFF, a rise of VCC starts a power-on interval with
everything volatile blank; a fall to the power-off level from FROZEN, SETTLING or SCANNING enters OFF, where of the
part's memory the array alone is kept and every output is low. What OFF holds of the lost state is the model's choice
(log 2) and not stated; that the level of the /RESET pin stands through OFF, as both clauses say, is the model's choice
(log 16). -/
def Obligations.PowerCycle : Prop :=
  (∀ s : State, s.opState = .off → ∃ t, exec .vccRise s = .next t ∧
    t.opState = .settling ∧ t.settleRunning = true ∧ t.imageHeld = false ∧
    (∀ k, t.slot k = { fields := Record.vacant, attn := false, dirty := false, storeFault := false, stamp := 0 }) ∧
    (∀ n, t.callIndex n = []) ∧ (∀ p, t.pocketReport p = (0, 255)) ∧ t.spindle = .unknown ∧ t.exchange = .idle ∧
    t.nextTag = 1 ∧ t.confirmation = none ∧ t.link = Link.cleared ∧ t.lostAnswer = none ∧
    t.host = HostPort.powerOn ∧ t.queue.urgent = [] ∧ t.queue.normal = [] ∧ t.flight = none ∧
    (∀ k : Slot, t.confirmFrom[k] = none) ∧
    t.lowestAttn = 255 ∧ t.pendingCauses = 0 ∧
    t.slotCopies = s.slotCopies ∧ t.cfgCopies = s.cfgCopies ∧ t.resetLow = s.resetLow) ∧
  (∀ s : State, s.opState = .frozen ∨ s.opState = .settling ∨ s.opState = .scanning →
    ∃ t, exec .powerOff s = .next t ∧ t.opState = .off ∧ t.imageHeld = false ∧
      t.slotCopies = s.slotCopies ∧ t.cfgCopies = s.cfgCopies ∧ t.resetLow = s.resetLow ∧
      t.rqfull = false ∧ t.anrdy = false ∧ t.anLines = 0 ∧ t.intLine = false ∧
      (∀ a, t.readWindow a = none) ∧ (∀ a, t.readFlag a = none))

/-- R165, R159, R164, R112: a fall of VCC below the falling write threshold. From RUNNING the part is FROZEN, SUPPLY goes
pending, and a commit in flight is abandoned: its target is invalid and its entry stands in the queue, at the head of
its part where no entry of its own already waits as high. From SETTLING the interval stops; from SCANNING the part
returns to SETTLING. In each, an answer decided and not wholly taken is marked as lost. The link's mark on a request
handed on is the model's (log 15); that the mark of a lost answer names its request, and stands where no answer waits, is
its choice (log 28). -/
def Obligations.SupplyFalls : Prop :=
  (∀ s : State, s.opState = .running → ∃ t, exec .vccFall s = .next t ∧
    t.opState = .frozen ∧ t.flight = none ∧
    t.host = { s.host with causes := { s.host.causes with supply := true } } ∧
    t.link = { s.link with leftRunning := s.link.leftRunning || decide (s.link.phase = .handedOn) } ∧
    s.AnswerMarked t ∧
    (s.flight = none → t.queue = s.queue ∧ t.slotCopies = s.slotCopies ∧ t.cfgCopies = s.cfgCopies) ∧
    (∀ f, s.flight = some f →
      (f.content.entry ∈ s.queue.urgent → t.queue = s.queue) ∧
      (f.content.entry ∉ s.queue.urgent → f.cls = .urgent →
        t.queue.urgent = f.content.entry :: s.queue.urgent ∧
          t.queue.normal = s.queue.normal.filter (fun e => e ≠ f.content.entry)) ∧
      (f.content.entry ∉ s.queue.urgent → f.cls = .normal → f.content.entry ∈ s.queue.normal → t.queue = s.queue) ∧
      (f.content.entry ∉ s.queue.urgent → f.cls = .normal → f.content.entry ∉ s.queue.normal →
        t.queue.urgent = s.queue.urgent ∧ t.queue.normal = f.content.entry :: s.queue.normal) ∧
      (∀ k : Slot, t.slotCopies[k] =
        if f.content.entry = .slot k then (s.slotCopies[k]).put f.target .invalid else s.slotCopies[k]) ∧
      t.cfgCopies = if f.content.entry = .cfg then s.cfgCopies.put f.target .invalid else s.cfgCopies) ∧
    t = { s with opState := t.opState, flight := t.flight, host := t.host, link := t.link, queue := t.queue,
                 lostAnswer := t.lostAnswer, slotCopies := t.slotCopies, cfgCopies := t.cfgCopies }) ∧
  (∀ s : State, s.opState = .settling → ∃ t, exec .vccFall s = .next t ∧ s.AnswerMarked t ∧
    t = { s with settleRunning := false, lostAnswer := t.lostAnswer }) ∧
  (∀ s : State, s.opState = .scanning → ∃ t, exec .vccFall s = .next t ∧ s.AnswerMarked t ∧
    t = { s with opState := .settling, settleRunning := false, lostAnswer := t.lostAnswer })

/-- R163, R164, R165, R166, R160: a rise of VCC from FROZEN starts a settle interval and raises SUPPLY; from SETTLING it
starts the interval again. The end of a running interval leads to SCANNING with the image-held mark clear, and with it
set to RUNNING, where the head of the queue is taken into flight in the same step. -/
def Obligations.SupplyRisesAndSettles : Prop :=
  (∀ s : State, s.opState = .frozen → exec .vccRise s = .next
    { s with opState := .settling, settleRunning := true
             host := { s.host with causes := { s.host.causes with supply := true } } }) ∧
  (∀ s : State, s.opState = .settling → exec .vccRise s = .next { s with settleRunning := true }) ∧
  (∀ s : State, s.opState = .settling → s.settleRunning = true → s.imageHeld = false →
    exec .settleIntervalEnd s = .next { s with opState := .scanning, settleRunning := false }) ∧
  (∀ s t u : State, s.opState = .settling → s.settleRunning = true → s.imageHeld = true →
    t = { s with opState := .running, settleRunning := false } → exec .commitStart t = .next u →
    exec .settleIntervalEnd s = .next u)

/-! ### The changer link -/

/-- Inputs that the part does not take change nothing: edges and writes while it is in OFF or /RESET is held low (R96,
R111, R113, R133, R136); a trailing edge of /RQSTB or /ANTAKE whose acceptance mark is clear (R100, R104). -/
def Obligations.IgnoredInputs : Prop :=
  (∀ (c : Instr) (s : State), (s.opState = .off ∨ s.resetLow = true) →
    (strobeEdge c = true ∨ (hostCode? c).isSome = true ∨ plainHostWrite c = true) → exec c s = .next s) ∧
  (∀ (c : Instr) (kind : BitVec 4) (operand : BitVec 12) (s : State),
    request? c = some (kind, operand) → s.link.rqMark = false → exec c s = .next s) ∧
  (∀ s : State, s.link.anMark = false → exec .answerTake s = .next s)

/-- R98, R107: the link itself answers a latched word outside RUNNING, whatever its kind and operand, and in RUNNING a
word of an unknown kind or with an operand out of range; nothing outside the link changes. -/
def Obligations.LinkAnswersWhatItRefuses : Prop :=
  ∀ (c : Instr) (kind : BitVec 4) (operand : BitVec 12) (s : State),
    request? c = some (kind, operand) → s.resetLow = false → s.link.rqMark = true →
    (s.opState = .settling → exec c s = .next { s with link := s.link.answered kind operand (.notReady 1) }) ∧
    (s.opState = .scanning → exec c s = .next { s with link := s.link.answered kind operand (.notReady 2) }) ∧
    (s.opState = .frozen → exec c s = .next { s with link := s.link.answered kind operand .powerLow }) ∧
    (s.opState = .running → ¬ requestFits kind operand →
      exec c s = .next { s with link := s.link.answered kind operand (.badRequest kind.toNat) })

/-- R100, R101: a request that its block takes later stands handed on meanwhile, and the take leads to the next state
that a take in the step of the latch leads to from the same state (log 3). Of the takes in RUNNING, written out: a PROBE
of the spindle and a DAMAGE of the tool in it (R52, R26), whenever the request was handed on. -/
def Obligations.RequestTakenLaterDecidesAlike : Prop :=
  (∀ (s : State) (o : BitVec 12), s.RequestArrives →
    (requestFits 1 o → exec (.call o .later) s = .next (s.handed 1 o) ∧
      ∃ t, exec (.call o .inStep) s = .next t ∧ exec .requestTakeByBlock (s.handed 1 o) = .next t) ∧
    (requestFits 6 o → exec (.putaway o .later) s = .next (s.handed 6 o) ∧
      ∃ t, exec (.putaway o .inStep) s = .next t ∧ exec .requestTakeByBlock (s.handed 6 o) = .next t) ∧
    (exec (.charge o .later) s = .next (s.handed 4 o) ∧
      ∃ t, exec (.charge o .inStep) s = .next t ∧ exec .requestTakeByBlock (s.handed 4 o) = .next t) ∧
    (requestFits 5 o → exec (.damage o .later) s = .next (s.handed 5 o) ∧
      ∃ t, exec (.damage o .inStep) s = .next t ∧ exec .requestTakeByBlock (s.handed 5 o) = .next t) ∧
    (requestFits 7 o → exec (.probe o .later) s = .next (s.handed 7 o) ∧
      ∃ t, exec (.probe o .inStep) s = .next t ∧ exec .requestTakeByBlock (s.handed 7 o) = .next t)) ∧
  (∀ (s : State) (k : Slot), s.link.phase = .handedOn → s.opState = .running → s.link.leftRunning = false →
    s.spindle = .holds k →
    let answered (a : Answer) : Link :=
      { phase := .answering, latch := s.link.latch, answers := [some a], position := 0, status := .shown,
        rqMark := s.link.rqMark, anMark := s.link.anMark, leftRunning := false, an := a.word, fault := s.link.fault }
    (s.link.latch = some 0x7000 →
      exec .requestTakeByBlock s = .next { s with link := answered (.spindleHolds (s.record k).tool) }) ∧
    (s.link.latch = some 0x5000 → ∃ t, exec .requestTakeByBlock s = .next t ∧
      s.Claimed t k { s.record k with condition := .damaged } .urgent ∧
      t.link = answered (.damageNoted (s.record k).tool) ∧
      t = { s with image := t.image, queue := t.queue, link := t.link }))

/-- R101, R42: a request handed on and not yet taken when the operating state leaves RUNNING is answered POWER_LOW by the
link at its take, in FROZEN and after the return to RUNNING alike, and changes nothing else; the fall leaves it handed
on. That the answer comes at the take, by a mark that the fall leaves, is the model's reading (log 15). -/
def Obligations.HandedOnRequestAfterAFall : Prop :=
  (∀ (s : State) (w : LinkWord), s.link.phase = .handedOn → s.link.latch = some w →
    (s.opState ≠ .running ∨ s.link.leftRunning = true) →
    exec .requestTakeByBlock s = .next
      { s with link :=
        { phase := .answering, latch := some w, answers := [some .powerLow], position := 0, status := .shown,
          rqMark := s.link.rqMark, anMark := s.link.anMark, leftRunning := false, an := Answer.powerLow.word,
          fault := s.link.fault } }) ∧
  (∀ s : State, s.link.phase = .handedOn → s.opState = .running →
    ∃ t, exec .vccFall s = .next t ∧ t.link = { s.link with leftRunning := true })

/-- R99, R108, R110, R96: a leading edge of /RQSTB is accepted in IDLE; in HANDED_ON and ANSWERING it is a
STROBE_WHILE_BUSY fault, which sets the fault kind and the LINK cause and leaves the request in hand and both marks
alone. RQFULL is high in every phase but IDLE. That both rows of the table are judged by the phase alike is the model's
choice (log 8). -/
def Obligations.RequestStrobeIsJudgedByThePhase : Prop :=
  ∀ (c : Instr) (s : State), c = .rqstbLeadingEdge ∨ c = .strobeWhileBusy →
    s.opState ≠ .off → s.resetLow = false →
    (s.link.phase = .idle →
      exec c s = .next { s with link := { s.link with rqMark := true, phase := .receiving } }) ∧
    (s.link.phase = .handedOn ∨ s.link.phase = .answering → exec c s = .next
      { s with link := { s.link with fault := .strobeWhileBusy }
               host := { s.host with causes := { s.host.causes with link := true } } }) ∧
    (s.rqfull = true ↔ s.link.phase ≠ .idle)

/-- R103, R109, R110, R96: a leading edge of /ANTAKE is accepted while the current word is SHOWN; in the phases IDLE,
RECEIVING and HANDED_ON, and in ANSWERING with the current word HELD, it is a TAKE_WITHOUT_ANSWER fault, which takes
nothing. ANRDY is high exactly while the current word is SHOWN, and then and while it is TAKING the AN lines carry it.
R97, R106: the word of each answer, its result code in bits 15 to 11 and its value in bits 10 to 0, for a TAG the tag in
bits 10 to 7 and the return pocket in bits 6 to 0. That both rows of the table are judged by the status alike is the
model's choice (log 8). -/
def Obligations.AnswerStrobeIsJudgedByTheStatus : Prop :=
  (∀ (c : Instr) (s : State), c = .antakeLeadingEdge ∨ c = .takeWithoutAnswer →
    s.opState ≠ .off → s.resetLow = false →
    (s.link.phase = .answering → s.link.status = .shown →
      exec c s = .next { s with link := { s.link with anMark := true, status := .taking } }) ∧
    (s.link.phase ≠ .answering ∨ s.link.status = .held → exec c s = .next
      { s with link := { s.link with fault := .takeWithoutAnswer }
               host := { s.host with causes := { s.host.causes with link := true } } }) ∧
    (s.anrdy = true ↔ s.link.phase = .answering ∧ s.link.status = .shown) ∧
    (s.link.Sound → s.link.phase = .answering → s.link.status ≠ .held →
      ∃ a, s.link.answers[s.link.position]? = some (some a) ∧ s.anLines = a.word)) ∧
  (∀ n, n ≤ 2047 → ∀ a code, (a, code) ∈
    [(Answer.issue n, 1), (.issueMeasure n, 2), (.inSpindle n, 4), (.stow n, 5), (.doneOk n, 6), (.abandoned n, 7),
      (.charged n, 8), (.chargedNearEnd n, 9), (.chargedWorn n, 10), (.damageNoted n, 11), (.selectable n, 12),
      (.spindleHolds n, 13), (.unknownTool n, 16), (.exhausted n, 17), (.unavailable n, 18), (.noRoom n, 19),
      (.exchangeOpen n, 20), (.suspect n, 21), (.badTag n, 23), (.tooLate n, 24), (.notReady n, 26),
      (.badRequest n, 28), (.storeFault n, 29), (.doneUnsaved n, 30)] → a.word.toNat = 2048 * code + n) ∧
  (∀ a code, (a, code) ∈ [(Answer.spindleEmpty, 14), (.spindleUnknown, 15), (.noExchange, 22), (.busyExchange, 25),
      (.powerLow, 27)] → a.word.toNat = 2048 * code) ∧
  (∀ tag p, tag ≤ 15 → p ≤ 127 → (Answer.tag tag p).word.toNat = 2048 * 3 + 128 * tag + p)

/-- R104, R102, R84, R55: the trailing edge of an accepted /ANTAKE takes the current word. A further position becomes
current, SHOWN when its word has been released and HELD otherwise; after the last word the link is IDLE. The take of
word 2 moves an OFFERED exchange to RESERVED and starts the timer at the applied timeout. That a mark of the
answer as lost outlasts its take is the model's choice (log 28). -/
def Obligations.AnswerTakeAdvances : Prop :=
  ∀ s : State, s.opState ≠ .off → s.resetLow = false → s.link.anMark = true →
    ∃ t, exec .answerTake s = .next t ∧
      (∀ a, s.link.answers[s.link.position + 1]? = some (some a) →
        t.link = { s.link with anMark := false, position := s.link.position + 1, status := .shown, an := a.word }) ∧
      (s.link.answers[s.link.position + 1]? = some none →
        t.link = { s.link with anMark := false, position := s.link.position + 1, status := .held }) ∧
      (s.link.answers[s.link.position + 1]? = none →
        t.link = { s.link with anMark := false, phase := .idle, latch := none, answers := [], position := 0,
                               status := .held, leftRunning := false }) ∧
      (∀ x c, s.link.position = 1 → s.exchange = .offered x → s.config = some c →
        t.exchange = .reserved x c.timeout) ∧
      (s.link.position ≠ 1 ∨ (∀ x, s.exchange ≠ .offered x) → t.exchange = s.exchange) ∧
      t = { s with link := t.link, exchange := t.exchange }

/-- R99, the law: from the latching of a request until the taking of its last answer word the link holds that request
and no other, except that /RESET or the passage to OFF discards it. -/
def Obligations.OneRequestInHand : Prop :=
  ∀ (c : Instr) (s t : State) (w : LinkWord), s.link.Sound → s.opState ≠ .off → exec c s = .next t →
    s.link.latch = some w →
    t.link.latch = some w ∨
      (t.link.latch = none ∧
        (c = .reset ∨ t.opState = .off ∨
          (c = .answerTake ∧ s.link.anMark = true ∧ s.link.position + 1 = s.link.answers.length)))

/-! ### Life accounting -/

/-- R19, R20, R21, R22, R25: a charge of one unit or more to a spindle tool that is not retired. The claim changes the
charged total, remaining and condition alone, is urgent when it makes the tool WORN, and is answered at once by the
condition that results. -/
def Obligations.ChargeCountsLife : Prop :=
  ∀ (s : State) (o : BitVec 12) (k : Slot), s.RequestArrives → s.spindle = .holds k → 1 ≤ o.toNat →
    (s.record k).condition ≠ .worn → (s.record k).condition ≠ .damaged →
    let r := s.record k
    let left := if r.mode = .uncounted then r.remaining else r.remaining - o.toNat
    let new : Record :=
      { r with
        charged := if r.charged + o.toNat ≤ 16777215 then r.charged + o.toNat else 16777215
        remaining := left
        condition :=
          if r.mode ≠ .uncounted ∧ left = 0 then .worn else if 0 < r.warn ∧ left ≤ r.warn then .nearEnd else .used }
    let shown := if r.mode = .uncounted ∨ 2047 < left then 2047 else left
    ∃ t, exec (.charge o .inStep) s = .next t ∧
      s.Claimed t k new (if new.condition = .worn then .urgent else .normal) ∧
      t.link = s.link.answered 4 o
        (if new.condition = .worn then .chargedWorn 4
         else if new.condition = .nearEnd then .chargedNearEnd shown else .charged shown) ∧
      t = { s with image := t.image, queue := t.queue, link := t.link }

/-- R24: a charge of 0 units to a spindle tool that is not retired changes nothing but the link, and its answer tells
the unchanged condition and remaining life; in the other spindle states it is refused as R19 gives. -/
def Obligations.ChargeOfZeroChangesNothing : Prop :=
  ∀ s : State, s.RequestArrives →
    (∀ k, s.spindle = .holds k → (s.record k).condition ≠ .worn → (s.record k).condition ≠ .damaged →
      let r := s.record k
      let shown := if r.mode = .uncounted ∨ 2047 < r.remaining then 2047 else r.remaining
      exec (.charge 0 .inStep) s = .next
        { s with link :=
          s.link.answered 4 0 (if r.condition = .nearEnd then .chargedNearEnd shown else .charged shown) }) ∧
    (s.spindle = .exchanging →
      exec (.charge 0 .inStep) s = .next { s with link := s.link.answered 4 0 .busyExchange }) ∧
    (s.spindle = .unknown →
      exec (.charge 0 .inStep) s = .next { s with link := s.link.answered 4 0 .spindleUnknown }) ∧
    (s.spindle = .empty →
      exec (.charge 0 .inStep) s = .next { s with link := s.link.answered 4 0 .spindleEmpty })

/-- R23: a charge of any amount to a retired spindle tool adds to the charged total, held at 16 777 215, and changes no
other field and no ATTN; it is answered CHARGED_WORN with the condition code. -/
def Obligations.ChargeToARetiredTool : Prop :=
  ∀ (s : State) (o : BitVec 12) (k : Slot), s.RequestArrives → s.spindle = .holds k →
    (s.record k).condition = .worn ∨ (s.record k).condition = .damaged →
    let r := s.record k
    let new : Record :=
      { r with charged := if r.charged + o.toNat ≤ 16777215 then r.charged + o.toNat else 16777215 }
    ∃ t, exec (.charge o .inStep) s = .next t ∧
      (r.charged ≤ 16777215 →
        s.Claimed t k new .normal ∧ (∀ j, (t.slot j).attn = (s.slot j).attn) ∧
        (o.toNat = 0 ∨ r.charged = 16777215 → t.image = s.image ∧ t.queue = s.queue)) ∧
      t.link = s.link.answered 4 o (.chargedWorn (if r.condition = .worn then 4 else 5)) ∧
      t = { s with image := t.image, queue := t.queue, link := t.link }

/-- R19, R26: a CHARGE of any amount and a DAMAGE that meet a spindle that does not hold a known tool are answered by
the spindle state and change nothing else. -/
def Obligations.SpindleRefusesChargeAndDamage : Prop :=
  ∀ (s : State) (o : BitVec 12) (a : Answer), s.RequestArrives →
    (s.spindle = .exchanging ∧ a = .busyExchange) ∨ (s.spindle = .unknown ∧ a = .spindleUnknown) ∨
      (s.spindle = .empty ∧ a = .spindleEmpty) →
    exec (.charge o .inStep) s = .next { s with link := s.link.answered 4 o a } ∧
    (o = 0 → exec (.damage o .inStep) s = .next { s with link := s.link.answered 5 o a })

/-- R26: DAMAGE to the spindle tool. The condition becomes DAMAGED, urgent, with ATTN set on entry; a tool already
DAMAGED is not changed. The answer is DAMAGE_NOTED with the tool number, and the spindle still holds the tool. -/
def Obligations.DamageMarksTheTool : Prop :=
  ∀ (s : State) (k : Slot), s.RequestArrives → s.spindle = .holds k →
    ∃ t, exec (.damage 0 .inStep) s = .next t ∧
      s.Claimed t k { s.record k with condition := .damaged } .urgent ∧
      ((s.record k).condition ≠ .damaged → (t.slot k).attn = true) ∧
      ((s.record k).condition = .damaged → t.image = s.image ∧ t.queue = s.queue) ∧
      t.link = s.link.answered 5 0 (.damageNoted (s.record k).tool) ∧
      t = { s with image := t.image, queue := t.queue, link := t.link }

/-! ### Selection -/

/-- R34, R36, the law: the Call Index lists every non-vacant slot exactly once, under its tool number, in increasing rank,
equal ranks by slot number, and lists no vacant slot. -/
def Obligations.CallIndexLaw : Prop :=
  ∀ (s : State) (n : Nat),
    (∀ k, k ∈ s.callIndex n ↔ (s.record k).condition ≠ .vacant ∧ (s.record k).tool = n) ∧
    (s.callIndex n).Nodup ∧
    (s.callIndex n).Pairwise (fun j k =>
      (s.record j).rank < (s.record k).rank ∨ ((s.record j).rank = (s.record k).rank ∧ j < k))

/-- R39, R40, R45, R46, R47: the choice among the sisters of a tool number, by the four classes in list order. -/
def Obligations.ChoiceFollowsTheClasses : Prop :=
  ∀ (s : State) (n : Nat),
    (s.callIndex n = [] → s.choose n = .unknownTool) ∧
    (∀ k, First (fun j => (s.record j).spindleChoice) (s.callIndex n) k →
      s.choose n = .inSpindle (s.record k).rank) ∧
    ((∀ j ∈ s.callIndex n, ¬ (s.record j).spindleChoice) →
      ∀ k p, First (fun j => (s.record j).pocketCandidate) (s.callIndex n) k → (s.record k).location = .pocket p →
        s.choose n = .candidate k p) ∧
    ((∀ j ∈ s.callIndex n, ¬ (s.record j).eligible) →
      ∀ k, First (fun j => (s.record j).waitingSister) (s.callIndex n) k →
        s.choose n = .unavailable (s.record k).rank) ∧
    (s.callIndex n ≠ [] →
      (∀ j ∈ s.callIndex n, (s.record j).condition = .worn ∨ (s.record j).condition = .damaged) →
      s.choose n = .exhausted (s.callIndex n).length)

/-- R50, R51: a PROBE of a tool number is answered at once and changes nothing but the link: SPINDLE_UNKNOWN first, then
by the choice that a CALL would make. -/
def Obligations.ProbeAnswersWhatACallWouldChoose : Prop :=
  ∀ (s : State) (o : BitVec 12) (a : Answer), s.RequestArrives → 1 ≤ o.toNat → o.toNat ≤ 2047 →
    (s.spindle = .unknown ∧ a = .spindleUnknown) ∨
      (s.spindle ≠ .unknown ∧
        ((s.choose o.toNat = .unknownTool ∧ a = .unknownTool o.toNat) ∨
          (∃ r, s.choose o.toNat = .inSpindle r ∧ a = .selectable 0) ∨
          (∃ k p, s.choose o.toNat = .candidate k p ∧ a = .selectable p) ∨
          (∃ n, s.choose o.toNat = .exhausted n ∧ a = .exhausted n) ∨
          (∃ r, s.choose o.toNat = .unavailable r ∧ a = .unavailable r))) →
    exec (.probe o .inStep) s = .next { s with link := s.link.answered 7 o a }

/-- R52: PROBE 0 reports the spindle, whatever the condition and flags of the tool it holds, and changes nothing but the
link; outside RUNNING the link answers it as any PROBE. -/
def Obligations.ProbeOfTheSpindle : Prop :=
  ∀ s : State,
    (s.RequestArrives →
      (∀ k, s.spindle = .holds k → exec (.probe 0 .inStep) s = .next
        { s with link := s.link.answered 7 0 (.spindleHolds (s.record k).tool) }) ∧
      (s.spindle = .empty → exec (.probe 0 .inStep) s = .next { s with link := s.link.answered 7 0 .spindleEmpty }) ∧
      (s.spindle = .unknown →
        exec (.probe 0 .inStep) s = .next { s with link := s.link.answered 7 0 .spindleUnknown }) ∧
      (s.spindle = .exchanging →
        exec (.probe 0 .inStep) s = .next { s with link := s.link.answered 7 0 .busyExchange })) ∧
    (s.resetLow = false → s.link.rqMark = true →
      (s.opState = .settling →
        exec (.probe 0 .inStep) s = .next { s with link := s.link.answered 7 0 (.notReady 1) }) ∧
      (s.opState = .scanning →
        exec (.probe 0 .inStep) s = .next { s with link := s.link.answered 7 0 (.notReady 2) }) ∧
      (s.opState = .frozen → exec (.probe 0 .inStep) s = .next { s with link := s.link.answered 7 0 .powerLow }))

/-! ### The magazine -/

/-- R64, with R56 to R60: a tool of a size may be placed into a pocket, in the view without the slots of `gone`, exactly
when the pocket lies in the ring, no tool of the view has a location that names it, and no tool of the view names a ring
neighbour of it when either tool is LARGE. The pocket report gives the first of OCCUPIED with the occupant, RESERVED,
UNKNOWN, BLOCKED and FREE that applies, and code 0 outside the ring; POCKET_STATE and POCKET_OCCUPANT read the report of
the pocket in POCKET_SELECT. -/
def Obligations.PlacementValidity : Prop :=
  (∀ (s : State) (gone : List Slot) (size : Size) (p : Nat),
    s.placeable gone size p = true ↔
      1 ≤ p ∧ p ≤ s.pockets ∧
        ∀ j, j ∉ gone → (s.record j).condition ≠ .vacant →
          (s.record j).location.pocketPart ≠ some p ∧
          (size = .large ∨ (s.record j).size = .large →
            (s.record j).location.pocketPart ≠ some (neighbourBefore s.pockets p) ∧
            (s.record j).location.pocketPart ≠ some (neighbourAfter s.pockets p))) ∧
  (∀ (s : State) (p : Nat),
    let occupied := ∃ k, s.StandsIn k p
    let reserved := ∃ k, s.ReservesPocket k p
    let unknown := ∃ k, s.DoubtsPocket k p
    (p = 0 ∨ s.pockets < p → s.pocketReport p = (0, 255)) ∧
    (1 ≤ p → p ≤ s.pockets →
      (∀ k, s.StandsIn k p → (∀ j, s.StandsIn j p → j = k) → s.pocketReport p = (5, k.val)) ∧
      (¬ occupied →
        (reserved → s.pocketReport p = (4, 255)) ∧
        (¬ reserved →
          (unknown → s.pocketReport p = (3, 255)) ∧
          (¬ unknown →
            (s.LargeBeside p → s.pocketReport p = (2, 255)) ∧
            (¬ s.LargeBeside p → s.pocketReport p = (1, 255))))))) ∧
  (∀ s : State, s.opState ≠ .off →
    s.readWindow 0x12 = some (BitVec.ofNat 8 (s.pocketReport s.host.pocketSelect.toNat).1) ∧
    s.readWindow 0x13 = some (BitVec.ofNat 8 (s.pocketReport s.host.pocketSelect.toNat).2))

/-- R66, R67, R68, R69: the return pocket. Under FIXED it is the home pocket, when that is valid. Under SWAP it is the
first valid pocket round the ring from the source pocket, or for a PUTAWAY from the home pocket, or from pocket 1
without one. When none is found, NO_ROOM carries the first pocket examined. -/
def Obligations.ReturnPocketChoice : Prop :=
  ∀ (s : State) (c : Configuration) (k i : Slot) (src : Nat), s.config = some c →
    let r := s.record k
    (c.policy = .fixed →
      (r.home ≠ 0 → s.placeable [k, i] r.size r.home = true → s.returnForCall k i src = .chosen r.home) ∧
      (r.home = 0 ∨ s.placeable [k, i] r.size r.home = false → s.returnForCall k i src = .noRoom r.home) ∧
      (r.home ≠ 0 → s.placeable [k] r.size r.home = true → s.returnForPutaway k = .chosen r.home) ∧
      (r.home = 0 ∨ s.placeable [k] r.size r.home = false → s.returnForPutaway k = .noRoom r.home)) ∧
    (c.policy = .swap → 1 ≤ src → src ≤ c.pockets → r.home ≤ c.pockets → 1 ≤ c.pockets →
      (∀ p, s.placeable [k, i] r.size p = true →
        (∀ q, s.placeable [k, i] r.size q = true → stepsRound c.pockets src p ≤ stepsRound c.pockets src q) →
        s.returnForCall k i src = .chosen p) ∧
      ((∀ q, s.placeable [k, i] r.size q = false) → s.returnForCall k i src = .noRoom src) ∧
      (let first := if r.home = 0 then 1 else r.home
       (∀ p, s.placeable [k] r.size p = true →
         (∀ q, s.placeable [k] r.size q = true → stepsRound c.pockets first p ≤ stepsRound c.pockets first q) →
         s.returnForPutaway k = .chosen p) ∧
       ((∀ q, s.placeable [k] r.size q = false) → s.returnForPutaway k = .noRoom first)))

/-! ### The exchange -/

/-- R41, R43, R44, R45, R46, R47, R48: a CALL that stops at steps 3 to 8 is answered by one word and changes nothing but
the link. -/
def Obligations.CallRefusals : Prop :=
  ∀ (s : State) (o : BitVec 12) (a : Answer), s.RequestArrives → 1 ≤ o.toNat → o.toNat ≤ 2047 →
    (∃ x, s.exchange = .offered x ∧ a = .exchangeOpen x.tag) ∨
      (∃ x timer, s.exchange = .reserved x timer ∧ a = .exchangeOpen x.tag) ∨
      (∃ x cause, s.exchange = .suspect x cause ∧ a = .suspect x.tag) ∨
      (s.exchange = .idle ∧
        ((s.spindle = .unknown ∧ a = .spindleUnknown) ∨
          (s.spindle ≠ .unknown ∧
            ((s.choose o.toNat = .unknownTool ∧ a = .unknownTool o.toNat) ∨
              (∃ r, s.choose o.toNat = .inSpindle r ∧ a = .inSpindle r) ∨
              (∃ n, s.choose o.toNat = .exhausted n ∧ a = .exhausted n) ∨
              (∃ r, s.choose o.toNat = .unavailable r ∧ a = .unavailable r) ∨
              (∃ i p k first, s.choose o.toNat = .candidate i p ∧ s.spindle = .holds k ∧
                s.returnForCall k i p = .noRoom first ∧ a = .noRoom first))))) →
    exec (.call o .inStep) s = .next { s with link := s.link.answered 1 o a }

/-- R47, R48, R74, R76, R78, R79, R80: a CALL that reaches step 9 opens the exchange with the chosen sister and, when the
spindle holds a tool, with that tool and its return pocket. -/
def Obligations.CallOpensAnExchange : Prop :=
  ∀ (s : State) (o : BitVec 12) (i : Slot) (p : Nat) (out : Option (Slot × Nat)), s.RequestArrives →
    1 ≤ o.toNat → o.toNat ≤ 2047 → s.SpindleSound → s.exchange = .idle → s.choose o.toNat = .candidate i p →
    (s.spindle = .empty ∧ out = none) ∨
      (∃ k r, s.spindle = .holds k ∧ s.returnForCall k i p = .chosen r ∧ out = some (k, r)) →
    ∃ t, exec (.call o .inStep) s = .next t ∧
      s.Rewritten t (s.fieldsIfOpened (.call i p out)) ∧ t.spindle = .exchanging ∧
      t.exchange = .offered { tag := s.nextTag, movement := .call i p out } ∧
      t.nextTag = (if s.nextTag = 15 then 1 else s.nextTag + 1) ∧
      s.Awaited t (.call i p out) (.tag s.nextTag ((out.map Prod.snd).getD 0)) ∧
      t.link = s.link.opened 1 o (if (s.record i).measure = true then .issueMeasure p else .issue p) ∧
      t = { s with image := t.image, queue := t.queue, spindle := t.spindle, exchange := t.exchange,
                   nextTag := t.nextTag, confirmation := t.confirmation, confirmFrom := t.confirmFrom,
                   flight := t.flight, link := t.link }

/-- R77, R69: a PUTAWAY that stops at steps 3 to 6 is answered by one word and changes nothing but the link. -/
def Obligations.PutawayRefusals : Prop :=
  ∀ (s : State) (a : Answer), s.RequestArrives →
    (∃ x, s.exchange = .offered x ∧ a = .exchangeOpen x.tag) ∨
      (∃ x timer, s.exchange = .reserved x timer ∧ a = .exchangeOpen x.tag) ∨
      (∃ x cause, s.exchange = .suspect x cause ∧ a = .suspect x.tag) ∨
      (s.exchange = .idle ∧
        ((s.spindle = .empty ∧ a = .spindleEmpty) ∨ (s.spindle = .unknown ∧ a = .spindleUnknown) ∨
          (∃ k first, s.spindle = .holds k ∧ s.returnForPutaway k = .noRoom first ∧ a = .noRoom first))) →
    exec (.putaway 0 .inStep) s = .next { s with link := s.link.answered 6 0 a }

/-- R77, R68, R74, R76, R78, R79, R80: a PUTAWAY whose return pocket is found opens an exchange with the spindle tool as
outgoing slot alone. -/
def Obligations.PutawayOpensAnExchange : Prop :=
  ∀ (s : State) (k : Slot) (r : Nat), s.RequestArrives → s.SpindleSound → s.exchange = .idle → s.spindle = .holds k →
    s.returnForPutaway k = .chosen r →
    ∃ t, exec (.putaway 0 .inStep) s = .next t ∧
      s.Rewritten t (s.fieldsIfOpened (.putaway k r)) ∧ t.spindle = .exchanging ∧
      t.exchange = .offered { tag := s.nextTag, movement := .putaway k r } ∧
      t.nextTag = (if s.nextTag = 15 then 1 else s.nextTag + 1) ∧
      s.Awaited t (.putaway k r) (.tag s.nextTag r) ∧ t.link = s.link.opened 6 0 (.stow r) ∧
      t = { s with image := t.image, queue := t.queue, spindle := t.spindle, exchange := t.exchange,
                   nextTag := t.nextTag, confirmation := t.confirmation, confirmFrom := t.confirmFrom,
                   flight := t.flight, link := t.link }

/-- R86, R70, R80: a DONE with the open tag, in RESERVED, closes the exchange as moved and withholds DONE_OK. -/
def Obligations.DoneClosesTheExchange : Prop :=
  ∀ (s : State) (o : BitVec 12) (x : OpenExchange) (timer : Nat), s.RequestArrives → s.ExchangeSound →
    1 ≤ o.toNat → o.toNat ≤ 15 → s.exchange = .reserved x timer → x.tag = o.toNat →
    ∃ t, exec (.done o) s = .next t ∧
      s.Rewritten t (s.fieldsIfMoved x.movement) ∧ t.exchange = .idle ∧
      (∀ i p out, x.movement = .call i p out → t.spindle = .holds i) ∧
      (∀ k r, x.movement = .putaway k r → t.spindle = .empty) ∧
      s.Awaited t x.movement (.doneOk o.toNat) ∧ t.link = s.link.waiting 2 o ∧
      t = { s with image := t.image, queue := t.queue, spindle := t.spindle, exchange := t.exchange,
                   confirmation := t.confirmation, confirmFrom := t.confirmFrom, flight := t.flight, link := t.link }

/-- R87, R83, R80: an ABANDON with the open tag, in RESERVED, reverts the exchange and withholds ABANDONED. -/
def Obligations.AbandonReverts : Prop :=
  ∀ (s : State) (o : BitVec 12) (x : OpenExchange) (timer : Nat), s.RequestArrives → s.ExchangeSound →
    1 ≤ o.toNat → o.toNat ≤ 15 → s.exchange = .reserved x timer → x.tag = o.toNat →
    ∃ t, exec (.abandon o) s = .next t ∧
      s.Rewritten t (s.fieldsIfReverted x.movement) ∧ t.exchange = .idle ∧
      (∀ k r, x.movement.outgoing = some (k, r) → t.spindle = .holds k) ∧
      (x.movement.outgoing = none → t.spindle = .empty) ∧
      s.Awaited t x.movement (.abandoned o.toNat) ∧ t.link = s.link.waiting 3 o ∧
      t = { s with image := t.image, queue := t.queue, spindle := t.spindle, exchange := t.exchange,
                   confirmation := t.confirmation, confirmFrom := t.confirmFrom, flight := t.flight, link := t.link }

/-- R88, R91: a DONE or ABANDON that does not find a RESERVED exchange with its tag is answered by one word and changes
nothing but the link. -/
def Obligations.DoneAndAbandonRefused : Prop :=
  ∀ (s : State) (o : BitVec 12) (a : Answer), s.RequestArrives → 1 ≤ o.toNat → o.toNat ≤ 15 →
    (s.exchange = .idle ∧ a = .noExchange) ∨
      (∃ x timer, s.exchange = .reserved x timer ∧ x.tag ≠ o.toNat ∧ a = .badTag x.tag) ∨
      (∃ x cause, s.exchange = .suspect x cause ∧ x.tag = o.toNat ∧ a = .tooLate x.tag) ∨
      (∃ x cause, s.exchange = .suspect x cause ∧ x.tag ≠ o.toNat ∧ a = .badTag x.tag) →
    exec (.done o) s = .next { s with link := s.link.answered 2 o a } ∧
    exec (.abandon o) s = .next { s with link := s.link.answered 3 o a }

/-- R80, R82, R83, R89, R105: a confirmation record ends with its withheld answer once every slot is marked, or with its
replacement once a store fault has arrived, which for a TAG also reverts the OFFERED exchange; any other record waits
on. Outside RUNNING every record waits and its position stays HELD (R95, R107), whenever its commits completed (log 4).
That a release without a record that can end changes nothing is the model's choice (log 7). -/
def Obligations.AnswerReleaseEndsTheRecord : Prop :=
  (∀ s : State, s.opState ≠ .running → exec .answerRelease s = .next s) ∧
  (∀ s : State, s.confirmation = none → exec .answerRelease s = .next s) ∧
  (∀ (s : State) (c : Confirmation) (k : Slot), s.confirmation = some c → c.failed = none → (k, false) ∈ c.waiting →
    exec .answerRelease s = .next s) ∧
  (∀ (s : State) (c : Confirmation) (a : Answer), s.opState = .running → s.confirmation = some c →
    c.failed = none → (∀ e ∈ c.waiting, e.2 = true) → s.link.answers.getLast? = some none →
    (∃ tag p, c.withheld = .tag tag p ∧ a = .tag tag p) ∨ (∃ tag, c.withheld = .doneOk tag ∧ a = .doneOk tag) ∨
      (∃ tag, c.withheld = .abandoned tag ∧ a = .abandoned tag) →
    exec .answerRelease s = .next { s with link := s.link.filled a, confirmation := none }) ∧
  (∀ (s : State) (c : Confirmation) (k : Slot) (tag : Nat), s.opState = .running → s.confirmation = some c →
    c.failed = some k → c.withheld = .doneOk tag ∨ c.withheld = .abandoned tag → s.link.answers.getLast? = some none →
    exec .answerRelease s = .next { s with link := s.link.filled (.doneUnsaved tag), confirmation := none }) ∧
  (∀ (s : State) (c : Confirmation) (k : Slot) (tag p : Nat) (x : OpenExchange), s.opState = .running →
    s.confirmation = some c → c.failed = some k → c.withheld = .tag tag p →
    s.link.answers.getLast? = some none → s.exchange = .offered x → s.ExchangeSound →
    ∃ t, exec .answerRelease s = .next t ∧ t.link = s.link.filled (.storeFault k.val) ∧ t.confirmation = none ∧
      s.Rewritten t (s.fieldsIfReverted x.movement) ∧ t.exchange = .idle ∧
      (∀ o r, x.movement.outgoing = some (o, r) → t.spindle = .holds o) ∧
      (x.movement.outgoing = none → t.spindle = .empty) ∧
      t = { s with image := t.image, queue := t.queue, spindle := t.spindle, exchange := t.exchange,
                   confirmation := t.confirmation, link := t.link })

/-- R80, the law, in the two steps it takes: a TAG, DONE_OK or ABANDONED comes into the answer sequence only in RUNNING
(R95, R107) and only from a confirmation record whose slots are all marked; and a slot is marked only by the completion
of a commit of it whose snapshot was taken after the claim of the record (R81, R158). -/
def Obligations.DurableAnswersWaitForTheirCommits : Prop :=
  (∀ (c : Instr) (s t : State) (a : Answer), exec c s = .next t → some a ∈ t.link.answers →
    (∃ tag p, a = .tag tag p) ∨ (∃ tag, a = .doneOk tag) ∨ (∃ tag, a = .abandoned tag) →
    some a ∈ s.link.answers ∨
      s.opState = .running ∧ ∃ r : Confirmation, r.withheld.released = a ∧ r.failed = none ∧
        (∀ e ∈ r.waiting, e.2 = true) ∧ ((c = .answerRelease ∧ s.confirmation = some r) ∨
          (∃ v u, c = .commitAttempt v .inStep ∧ exec (.commitAttempt v .later) s = .next u ∧
            u.confirmation = some r))) ∧
  (∀ (c : Instr) (s t : State) (r : Confirmation) (k : Slot), exec c s = .next t → t.confirmation = some r →
    (k, true) ∈ r.waiting →
    (∃ q, s.confirmation = some q ∧ (k, true) ∈ q.waiting) ∨
      (∃ notice f fields stamp from_, c = .commitAttempt .pass notice ∧ s.flight = some f ∧
        f.content = .slot k fields stamp ∧ s.confirmFrom[k] = some from_ ∧ (stamp - from_).toNat ≤ 32767))

/-- R90, R85, R146: the expiry of the exchange timer in RESERVED suspects the exchange with cause TIMEOUT, in every
operating state but OFF. Outside RESERVED no timer runs; that an expiry there changes nothing is the model's choice
(log 7). -/
def Obligations.TimerExpirySuspects : Prop :=
  (∀ (s : State) (x : OpenExchange) (timer : Nat), s.opState ≠ .off → s.exchange = .reserved x timer →
    s.ExchangeSound →
    ∃ t, exec .exchangeTimerExpiry s = .next t ∧
      s.Rewritten t (s.fieldsIfSuspected x.movement) ∧ (∀ k ∈ x.movement.named, (t.slot k).attn = true) ∧
      t.spindle = .unknown ∧ t.exchange = .suspect x .timeout ∧
      t.host = { s.host with causes := { s.host.causes with suspect := true } } ∧
      t = { s with image := t.image, queue := t.queue, spindle := t.spindle, exchange := t.exchange,
                   host := t.host }) ∧
  (∀ s : State, (∀ x timer, s.exchange ≠ .reserved x timer) → exec .exchangeTimerExpiry s = .next s)

/-- R92, R111, R112, R132, R133, R148, R168: /RESET in a powered part clears the link, marks an answer decided and not
wholly taken as lost (log 28: by its request, and outside the clearing), discards the confirmation record, resets the
Host Port, its staging registers to the applied configuration or to 0 while none is, and acts on the exchange by its
state; the image changes only by that effect, and the next-tag counter, the flight, the array and the operating state
are unchanged. Its release changes the pin alone. -/
def Obligations.ResetActs : Prop :=
  (∀ s : State, s.opState ≠ .off → s.resetLow = false → s.ExchangeSound →
    ∃ t, exec .reset s = .next t ∧ t.resetLow = true ∧ t.confirmation = none ∧
      t.link = { phase := .idle, latch := none, answers := [], position := 0, status := .held, rqMark := false,
                 anMark := false, leftRunning := false, an := 0, fault := .none } ∧
      s.AnswerMarked t ∧
      (s.exchange = .idle → t.exchange = .idle ∧ t.image = s.image ∧ t.queue = s.queue ∧ t.spindle = s.spindle) ∧
      (∀ x, s.exchange = .offered x → t.exchange = .idle ∧ s.Rewritten t (s.fieldsIfReverted x.movement) ∧
        (∀ k r, x.movement.outgoing = some (k, r) → t.spindle = .holds k) ∧
        (x.movement.outgoing = none → t.spindle = .empty)) ∧
      (∀ x timer, s.exchange = .reserved x timer → t.exchange = .suspect x .reset ∧
        s.Rewritten t (s.fieldsIfSuspected x.movement) ∧ t.spindle = .unknown ∧
        (∀ k ∈ x.movement.named, (t.slot k).attn = true)) ∧
      (∀ x cause, s.exchange = .suspect x cause →
        t.exchange = s.exchange ∧ t.image = s.image ∧ t.queue = s.queue ∧ t.spindle = s.spindle) ∧
      (t.host.busy = false ∧ t.host.command = 0 ∧ t.host.result = .ok ∧ t.host.cmdRefused = false ∧
        t.host.argSlot = 0 ∧ t.host.argTool = 0 ∧ t.host.argPos = 0 ∧ t.host.pocketSelect = 0 ∧
        t.host.workState = .empty ∧ t.host.work = s.host.work ∧ t.host.enable = 0) ∧
      (∀ c, s.config = some c → t.host.stageP = BitVec.ofNat 8 c.pockets ∧
        t.host.stagePolicy = (if c.policy = .fixed then 0 else 1) ∧ t.host.stageTimeout = BitVec.ofNat 8 c.timeout) ∧
      (s.config = none → t.host.stageP = 0 ∧ t.host.stagePolicy = 0 ∧ t.host.stageTimeout = 0) ∧
      (t.host.causes.command = false ∧ t.host.causes.link = false ∧ t.host.causes.supply = false ∧
        t.host.causes.configFault = false ∧ (t.host.causes.suspect = true ↔ t.exchange.suspect? ≠ none)) ∧
      t = { s with resetLow := t.resetLow, lostAnswer := t.lostAnswer, confirmation := t.confirmation,
                   link := t.link, image := t.image, queue := t.queue, spindle := t.spindle, exchange := t.exchange,
                   host := t.host }) ∧
  (∀ s : State, exec .resetRelease s = .next { s with resetLow := false })

/-! ### Host commands -/

/-- R117, R118: a command written while BUSY is dropped and sets CMD_REFUSED; NEW, RELEASE, the RESOLVEs,
DECLARE_SPINDLE_EMPTY, RETRY_STORE and CONFIG_STORE are refused FROZEN outside RUNNING before any other test; a code
that names no command completes UNKNOWN_COMMAND in every operating state that serves it. A read of RESULT gives the
code of the result, 0 to 15, and a read of COMMAND the code recorded. That COMMAND then reads the code of the command
refused FROZEN is the model's reading of R117 beside R118 (log 27). -/
def Obligations.CommandsRefusedByTheState : Prop :=
  (∀ (c : Instr) (code : Byte) (s : State), hostCode? c = some code → s.opState ≠ .off → s.resetLow = false →
    s.host.busy = true → exec c s = .next { s with host := { s.host with cmdRefused := true } }) ∧
  (∀ (c : Instr) (code : Byte) (s : State),
    c ∈ [.new, .release, .resolveMoved, .resolveNotMoved, .declareSpindleEmpty, .retryStore, .configStore] →
    hostCode? c = some code → s.CommandTaken → s.opState ≠ .running →
    exec c s = .next (s.commandDone code .frozen)) ∧
  (∀ (code : Byte) (s : State), code = 0 ∨ 13 ≤ code.toNat → s.CommandTaken →
    exec (.unknownCommand code) s = .next (s.commandDone code .unknownCommand)) ∧
  (∀ (s : State) (r : Result) (n : Nat), s.opState ≠ .off → s.host.result = r → (r, n) ∈
    [(Result.ok, 0), (.notFetched, 1), (.isVacant, 2), (.notVacant, 3), (.range, 4), (.rankTaken, 5),
      (.pocketConflict, 6), (.spindleTaken, 7), (.locked, 8), (.stale, 9), (.inMachine, 10), (.frozen, 11),
      (.noExchange, 12), (.noFault, 13), (.notFound, 14), (.unknownCommand, 15)] →
    s.readHost 0x05 = some (BitVec.ofNat 8 n) ∧ s.readHost 0x04 = some s.host.command)

/-- R119, R120, R121, R27: FETCH copies a non-vacant slot into the work record, NEW places its defaults for a vacant slot,
DISCARD empties the work record; a refused one changes the result and the COMMAND cause alone. -/
def Obligations.FetchNewDiscard : Prop :=
  (∀ s : State, s.CommandTaken → 128 ≤ s.host.argSlot.toNat →
    exec .fetch s = .next (s.commandDone 1 .range) ∧
    (s.opState = .running → exec .new s = .next (s.commandDone 2 .range))) ∧
  (∀ (s : State) (k : Slot), s.CommandTaken → s.host.argSlot.toNat = k.val →
    ((s.record k).condition = .vacant → exec .fetch s = .next (s.commandDone 1 .isVacant)) ∧
    ((s.record k).condition ≠ .vacant → ∃ t, exec .fetch s = .next t ∧
      t.host.work.CopyOf (s.slot k) ∧
      t = { s.commandDone 1 .ok with host :=
            { (s.commandDone 1 .ok).host with workState := .fetched k (s.slot k).stamp, work := t.host.work } }) ∧
    (s.opState = .running → (s.record k).condition ≠ .vacant → exec .new s = .next (s.commandDone 2 .notVacant)) ∧
    (s.opState = .running → (s.record k).condition = .vacant → exec .new s = .next
      { s.commandDone 2 .ok with host :=
        { (s.commandDone 2 .ok).host with
          workState := .new k
          work :=
            { directive := 1, condition := 0, tool := 0, rank := 1, size := 0, mode := 0, limit := 1, remaining := 1,
              warn := 0, charged := 0, locKind := 3, locPocket := 0, home := 0, flags := 0, indic := 0 } } })) ∧
  (∀ s : State, s.CommandTaken → exec .discard s = .next
    { s.commandDone 4 .ok with host := { (s.commandDone 4 .ok).host with workState := .empty } })

/-- R122, R123, R124, R125, R126, R94, R118: the eight steps of STORE, in their order: the first that refuses gives the
result, and the refused STORE changes the code in COMMAND, the result and the COMMAND cause alone. That COMMAND reads the
code of a STORE refused FROZEN is the model's reading of R117 beside R118 (log 27). -/
def Obligations.StoreRefusals : Prop :=
  ∀ s : State, s.CommandTaken →
    (s.host.workState = .empty → exec .store s = .next (s.commandDone 3 .notFetched)) ∧
    (∀ k, s.WorkOn k → s.opState ≠ .running → exec .store s = .next (s.commandDone 3 .frozen)) ∧
    (∀ k new, s.WorkOn k → s.opState = .running → new = s.host.work.toStore (s.record k) →
      (s.Stale k → exec .store s = .next (s.commandDone 3 .stale)) ∧
      (¬ s.Stale k →
        (¬ s.host.work.Accepted s.pockets (s.record k).location →
          exec .store s = .next (s.commandDone 3 .range)) ∧
        (s.host.work.Accepted s.pockets (s.record k).location →
          (s.RankShared k new → exec .store s = .next (s.commandDone 3 .rankTaken)) ∧
          (¬ s.RankShared k new →
            (s.StoreLocked k new → exec .store s = .next (s.commandDone 3 .locked)) ∧
            (¬ s.StoreLocked k new →
              (s.StoreConflicts k new → exec .store s = .next (s.commandDone 3 .pocketConflict)) ∧
              (¬ s.StoreConflicts k new → s.StoreSpindleTaken k new →
                exec .store s = .next (s.commandDone 3 .spindleTaken)))))))

/-- R127, R128, R28, R29, R30, R31, R62: a STORE that passes every step is one claim with the stored fields, urgent when
the location or the retirement changes; the spindle state follows, and the work record is filled again from the slot. -/
def Obligations.StoreTakesTheRecord : Prop :=
  ∀ (s : State) (k : Slot) (new : Record), s.CommandTaken → s.StoreAccepted k new →
    let retired (r : Record) : Prop := r.condition = .worn ∨ r.condition = .damaged
    ∃ t cls, exec .store s = .next t ∧ s.Claimed t k new cls ∧
      (cls = .urgent ↔
        new.location ≠ (s.record k).location ∨ ¬ (retired new ↔ retired (s.record k))) ∧
      (new.location = .spindle → t.spindle = .holds k) ∧
      (new.location ≠ .spindle → s.spindle = .holds k →
        ((∃ p, new.location = .unknown p) → t.spindle = .unknown) ∧
        ((∀ p, new.location ≠ .unknown p) → t.spindle = .empty)) ∧
      (new.location ≠ .spindle → s.spindle ≠ .holds k → t.spindle = s.spindle) ∧
      t.host.work.CopyOf (t.slot k) ∧
      t.host = { (s.commandDone 3 .ok).host with workState := .fetched k (t.slot k).stamp, work := t.host.work } ∧
      t = { s with image := t.image, queue := t.queue, spindle := t.spindle, host := t.host }

/-- R53, R54: LOCATE reads the Call Index by position into ARG_SLOT, in every operating state that serves it. -/
def Obligations.LocateReadsTheIndex : Prop :=
  ∀ s : State, s.CommandTaken →
    let n := s.host.argPos.toNat
    let list := s.callIndex s.host.argTool.toNat
    let done (r : Result) (slot : Byte) : State :=
      { s.commandDone 6 r with host := { (s.commandDone 6 r).host with argSlot := slot } }
    let inRange := (1 ≤ s.host.argTool.toNat ∧ s.host.argTool.toNat ≤ 2047) ∧ 1 ≤ n ∧ n ≤ 8
    (¬ inRange → exec .locate s = .next (done .range 255)) ∧
    (inRange → list.length < n → exec .locate s = .next (done .notFound 255)) ∧
    (inRange → ∀ k, list[n - 1]? = some k → exec .locate s = .next (done .ok (BitVec.ofNat 8 k.val)))

/-- R129, R12, R94: RELEASE in RUNNING, by the first case that applies; on OK the slot is VACANT with every other field
at its zero value, its ATTN clear, its stamp advanced, and handed normal, and the spindle and the work record are left. -/
def Obligations.ReleaseVacatesTheSlot : Prop :=
  ∀ s : State, s.CommandTaken → s.opState = .running →
    (128 ≤ s.host.argSlot.toNat → exec .release s = .next (s.commandDone 5 .range)) ∧
    (∀ k : Slot, s.host.argSlot.toNat = k.val →
      let lost := (s.record k).location = .out ∨ ∃ p, (s.record k).location = .unknown p
      ((s.record k).condition = .vacant ∨ ¬ lost → exec .release s = .next (s.commandDone 5 .inMachine)) ∧
      ((s.record k).condition ≠ .vacant → lost → s.Named k → exec .release s = .next (s.commandDone 5 .locked)) ∧
      ((s.record k).condition ≠ .vacant → lost → ¬ s.Named k → ∃ t, exec .release s = .next t ∧
        t.slot k = { fields := Record.vacant, attn := false, dirty := true, storeFault := (s.slot k).storeFault,
                     stamp := (s.slot k).stamp + 1 } ∧
        (∀ j, j ≠ k → t.slot j = s.slot j) ∧ t.queue = s.queue.hand (.slot k) .normal ∧
        (∀ n, k ∉ t.callIndex n) ∧
        t = { s.commandDone 5 .ok with image := t.image, queue := t.queue }))

/-- R93, R70: RESOLVE_MOVED and RESOLVE_NOT_MOVED in RUNNING: NO_EXCHANGE unless the exchange is SUSPECT, which they close
as moved or as reverted, with no confirmation record. -/
def Obligations.ResolveClosesTheExchange : Prop :=
  ∀ s : State, s.CommandTaken → s.opState = .running →
    (s.exchange.suspect? = none →
      exec .resolveMoved s = .next (s.commandDone 7 .noExchange) ∧
      exec .resolveNotMoved s = .next (s.commandDone 8 .noExchange)) ∧
    (∀ x cause, s.exchange = .suspect x cause → s.ExchangeSound →
      (∃ t, exec .resolveMoved s = .next t ∧ s.Rewritten t (s.fieldsIfMoved x.movement) ∧ t.exchange = .idle ∧
        (∀ i p out, x.movement = .call i p out → t.spindle = .holds i) ∧
        (∀ k r, x.movement = .putaway k r → t.spindle = .empty) ∧
        t = { s.commandDone 7 .ok with image := t.image, queue := t.queue, spindle := t.spindle,
                                       exchange := t.exchange }) ∧
      (∃ t, exec .resolveNotMoved s = .next t ∧ s.Rewritten t (s.fieldsIfReverted x.movement) ∧ t.exchange = .idle ∧
        (∀ k r, x.movement.outgoing = some (k, r) → t.spindle = .holds k) ∧
        (x.movement.outgoing = none → t.spindle = .empty) ∧
        t = { s.commandDone 8 .ok with image := t.image, queue := t.queue, spindle := t.spindle,
                                       exchange := t.exchange }))

/-- R63: DECLARE_SPINDLE_EMPTY in RUNNING makes an UNKNOWN spindle EMPTY when the exchange is not SUSPECT and no
non-vacant slot has location SPINDLE; in every other case the result is RANGE and the spindle is unchanged. -/
def Obligations.DeclareSpindleEmpty : Prop :=
  ∀ s : State, s.CommandTaken → s.opState = .running →
    let allowed := s.spindle = .unknown ∧ s.exchange.suspect? = none ∧
      ∀ k, (s.record k).condition ≠ .vacant → (s.record k).location ≠ .spindle
    (allowed → exec .declareSpindleEmpty s = .next { s.commandDone 9 .ok with spindle := .empty }) ∧
    (¬ allowed → exec .declareSpindleEmpty s = .next (s.commandDone 9 .range))

/-- R130, R15: RETRY_STORE in RUNNING: a faulted slot loses STORE_FAULT, and is DIRTY and handed normal unless it already
waits in the queue or is in flight; no stamp advances and ATTN is left. -/
def Obligations.RetryStoreQueuesAgain : Prop :=
  ∀ s : State, s.CommandTaken → s.opState = .running →
    (128 ≤ s.host.argSlot.toNat → exec .retryStore s = .next (s.commandDone 10 .range)) ∧
    (∀ k : Slot, s.host.argSlot.toNat = k.val →
      ((s.slot k).storeFault = false → exec .retryStore s = .next (s.commandDone 10 .noFault)) ∧
      ((s.slot k).storeFault = true → ∃ t, exec .retryStore s = .next t ∧
        (s.awaitsCommit k = true →
          t.slot k = { s.slot k with storeFault := false } ∧ t.queue = s.queue) ∧
        (s.awaitsCommit k = false →
          t.slot k = { s.slot k with storeFault := false, dirty := true } ∧
          t.queue.urgent = s.queue.urgent ∧ t.queue.normal = s.queue.normal ++ [.slot k]) ∧
        (∀ j, j ≠ k → t.slot j = s.slot j) ∧
        t = { s.commandDone 10 .ok with image := t.image, queue := t.queue }))

/-- R131, R144, R15: FLUSH completes at once in RUNNING with the queue empty and no flight, and otherwise waits BUSY; the
waiting FLUSH completes in a step of its own once both hold in RUNNING, and then every slot without STORE_FAULT is
durable. That a FLUSH waits outside RUNNING even with the queue empty is the model's reading (log 6), and that a
completion of a FLUSH when none is due changes nothing is its choice (log 7). -/
def Obligations.FlushWaitsForTheDrain : Prop :=
  (∀ s : State, s.CommandTaken →
    let drained := s.opState = .running ∧ s.queue.urgent = [] ∧ s.queue.normal = [] ∧ s.flight = none
    (drained → exec .flush s = .next (s.commandDone 11 .ok)) ∧
    (¬ drained → exec .flush s = .next { s with host := { s.host with command := 11, busy := true } })) ∧
  (∀ s : State,
    let due := s.host.busy = true ∧ s.opState = .running ∧ s.queue.urgent = [] ∧ s.queue.normal = [] ∧ s.flight = none
    (¬ due → exec .flushComplete s = .next s) ∧
    (due → exec .flushComplete s = .next
      { s with host :=
        { s.host with busy := false, result := .ok, causes := { s.host.causes with command := true } } }) ∧
    (due → s.CommitSound → ∀ k, (s.slot k).storeFault = false → (s.slot k).dirty = false ∧ s.Durable k))

/-- R71, R72, R132: CONFIG_STORE in RUNNING, by the first case that applies; on OK the staged values are applied, and CFG
is handed urgent when one of them changed. The locations of an open exchange count in cases 3 and 4 as the table has it
(log 29). -/
def Obligations.ConfigStoreAppliesTheStaging : Prop :=
  ∀ s : State, s.CommandTaken → s.opState = .running →
    ((∀ c, ¬ s.host.Stages c) → exec .configStore s = .next (s.commandDone 12 .range)) ∧
    (∀ c, s.host.Stages c →
      (s.BeyondRing c.pockets ∨ s.Crowded c.pockets →
        exec .configStore s = .next (s.commandDone 12 .pocketConflict)) ∧
      (¬ s.BeyondRing c.pockets → ¬ s.Crowded c.pockets →
        (s.exchange ≠ .idle → exec .configStore s = .next (s.commandDone 12 .locked)) ∧
        (s.exchange = .idle → s.config = some c → exec .configStore s = .next (s.commandDone 12 .ok)) ∧
        (s.exchange = .idle → s.config ≠ some c → exec .configStore s = .next
          { s.commandDone 12 .ok with config := some c, queue := s.queue.hand .cfg .urgent })))

/-! ### Register and flag writes -/

/-- R113, R114, R115, R117, R143, R147: what a register-window write does. STATUS bit 3 clears CMD_REFUSED; INT_PENDING
clears the event causes written 1; INT_ENABLE stores bits 5 to 0; an RW position reads back the byte written, with every
other position but the pocket report unchanged; every other address ignores the write. A bus write with A10 at 0 is the
command of its position, and at COMMAND that of its code. That bits 7 to 2 of WR_FLAGS read back 0 is the model's reading
of R114 (log 23). -/
def Obligations.RegisterWrites : Prop :=
  ∀ (s : State) (d : Byte), s.opState ≠ .off → s.resetLow = false →
    (d.getLsbD 3 = true → exec (.statusWrite d) s = .next { s with host := { s.host with cmdRefused := false } }) ∧
    (d.getLsbD 3 = false → exec (.statusWrite d) s = .next s) ∧
    (exec (.intPendingWrite d) s = .next
      { s with host := { s.host with causes :=
        { command := if d.getLsbD 0 then false else s.host.causes.command
          suspect := if d.getLsbD 2 then false else s.host.causes.suspect
          link := if d.getLsbD 3 then false else s.host.causes.link
          supply := if d.getLsbD 4 then false else s.host.causes.supply
          configFault := if d.getLsbD 5 then false else s.host.causes.configFault } } }) ∧
    (∃ t, exec (.intEnableWrite d) s = .next t ∧ (∀ i, i < 6 → t.host.enable.getLsbD i = d.getLsbD i) ∧
      t = { s with host := { s.host with enable := t.host.enable } }) ∧
    (∀ a : BitVec 10, a.toNat ∈ plainPositions → ∃ t, exec (.registerWrite a d) s = .next t ∧
      t.windowByte a.toNat = (if a.toNat = 0x37 then d &&& 3 else d) ∧
      (∀ i, i ≠ a.toNat → (a.toNat = 0x11 → i ≠ 0x12 ∧ i ≠ 0x13) → t.windowByte i = s.windowByte i) ∧
      t = { s with host := t.host }) ∧
    (∀ a : BitVec 10, a.toNat ∉ plainPositions → (Instr.registerWrite a d).wellFormed = true →
      exec (.registerWrite a d) s = .next s) ∧
    (hostWrite 0x03 d = .statusWrite d ∧ hostWrite 0x0A d = .intPendingWrite d ∧
      hostWrite 0x0B d = .intEnableWrite d) ∧
    (∀ c, c.wellFormed = true → hostCode? c = some d → hostWrite 0x04 d = c) ∧
    (∀ a : BitVec 10, (Instr.registerWrite a d).wellFormed = true → hostWrite (0#1 ++ a) d = .registerWrite a d)

/-- R135, R136, R138, R139, R140, R35, R3: the flag-space writes. With A10 at 1, A9–A8 name the flag, A7 sets or clears,
A6–A0 name the slot, and the data is not decoded. HOLD and MEASURE are claims in RUNNING on a non-vacant slot, except
the clear of HOLD on a repair duplicate, and are ignored otherwise; ATTN is volatile, a set ignored on a vacant slot;
DIRTY is ignored everywhere. -/
def Obligations.FlagWrites : Prop :=
  (∀ (s : State) (k : Slot) (v : Bool), s.opState ≠ .off → s.resetLow = false →
    let hold : Instr := if v then .holdSet k else .holdClear k
    let measure : Instr := if v then .measureSet k else .measureClear k
    let attn : Instr := if v then .attnSet k else .attnClear k
    let duplicate := ∃ j, j < k ∧ (s.record j).condition ≠ .vacant ∧ (s.record j).tool = (s.record k).tool ∧
      (s.record j).rank = (s.record k).rank
    (s.opState ≠ .running ∨ (s.record k).condition = .vacant →
      exec hold s = .next s ∧ exec measure s = .next s) ∧
    (s.opState = .running → (s.record k).condition ≠ .vacant →
      (v = false → duplicate → exec hold s = .next s) ∧
      (v = true ∨ ¬ duplicate → ∃ t, exec hold s = .next t ∧
        s.Claimed t k { s.record k with hold := v } .normal ∧ t = { s with image := t.image, queue := t.queue }) ∧
      (∃ t, exec measure s = .next t ∧
        s.Claimed t k { s.record k with measure := v } .normal ∧ t = { s with image := t.image, queue := t.queue })) ∧
    (v = true → (s.record k).condition = .vacant → exec attn s = .next s) ∧
    (v = false ∨ (s.record k).condition ≠ .vacant → ∃ t, exec attn s = .next t ∧
      t.slot k = { s.slot k with attn := v } ∧ (∀ j, j ≠ k → t.slot j = s.slot j) ∧ t = { s with image := t.image })) ∧
  (∀ (s : State) (k : Slot) (v : Bool), exec (.dirtyWrite k v) s = .next s) ∧
  (∀ (k : Slot) (v : Bool) (d : Byte),
    let write (flag : BitVec 2) : Instr := hostWrite (1#1 ++ flag ++ BitVec.ofBool v ++ BitVec.ofNat 7 k.val) d
    write 0 = (if v then .holdSet k else .holdClear k) ∧ write 1 = (if v then .measureSet k else .measureClear k) ∧
      write 2 = (if v then .attnSet k else .attnClear k) ∧ write 3 = .dirtyWrite k v)

/-- R135, R137, R141, R142, R145, R147, R113, R114, R115, R116, R61, R74: what the host reads. A vacant slot's flags read
0, and DIRTY of a non-vacant slot reads 1 exactly while it waits for a commit or carries STORE_FAULT. LOWEST_ATTN is the
lowest slot with ATTN set, vacant ones included, or 255, and ATTENTION is pending exactly while there is one. INT is high
exactly while a cause is both pending and enabled. STATUS, the identification, the snapshot registers, the arguments,
the staging registers and the work record read the state they name, a field of several bytes from its lowest offset on;
an unused offset, and every address with A10 = 0 and any of A9–A6 set, reads 0. That bits 7 to 2 of WR_FLAGS read 0,
whatever was written there, is the model's reading of R114 (log 23). -/
def Obligations.FlagsAndAttentionRead : Prop :=
  (∀ (s : State) (k : Slot) (operation : BitVec 1), s.opState ≠ .off →
    let address (flag : BitVec 2) : BitVec 11 := 1#1 ++ flag ++ operation ++ BitVec.ofNat 7 k.val
    let d7 (v : Bool) : Byte := if v then 0x80 else 0
    ((s.record k).condition = .vacant → ∀ flag, s.readHost (address flag) = some 0) ∧
    ((s.record k).condition ≠ .vacant →
      s.readHost (address 0) = some (d7 (s.record k).hold) ∧
      s.readHost (address 1) = some (d7 (s.record k).measure) ∧
      s.readHost (address 2) = some (d7 (s.slot k).attn) ∧
      (s.CommitSound → s.imageHeld = true →
        s.readHost (address 3) = some (d7 (s.awaitsCommit k || (s.slot k).storeFault))))) ∧
  (∀ s : State,
    (s.lowestAttn = 255 ↔ ∀ k, (s.slot k).attn = false) ∧
    (∀ k : Slot, s.lowestAttn = k.val ↔ (s.slot k).attn = true ∧ ∀ j, j < k → (s.slot j).attn = false) ∧
    (s.pendingCauses.getLsbD 1 = true ↔ ∃ k, (s.slot k).attn = true)) ∧
  (∀ s : State, s.opState ≠ .off →
    let read (o : BitVec 10) := s.readHost (0#1 ++ o)
    let byte (n : Nat) : Option Byte := some (BitVec.ofNat 8 n)
    let end_ (e : Option (Slot × Nat)) (slot pocket : BitVec 10) : Prop :=
      (∀ k p, e = some (k, p) → read slot = byte k.val ∧ read pocket = byte p) ∧
      (e = none → read slot = byte 255 ∧ read pocket = byte 0)
    (∃ b, read 0x03 = some b ∧ (b.getLsbD 0 = true ↔ s.opState = .running) ∧
      (b.getLsbD 1 = true ↔ s.opState = .frozen) ∧ b.getLsbD 2 = s.host.busy ∧ b.getLsbD 3 = s.host.cmdRefused ∧
      (b.getLsbD 4 = true ↔ s.queue.urgent = [] ∧ s.queue.normal = [] ∧ s.flight = none) ∧
      (b.getLsbD 5 = true ↔ s.confirmation ≠ none)) ∧
    (∃ b, read 0x0A = some b ∧ b.getLsbD 0 = s.host.causes.command ∧ b.getLsbD 1 = s.pendingCauses.getLsbD 1 ∧
      b.getLsbD 2 = s.host.causes.suspect ∧ b.getLsbD 3 = s.host.causes.link ∧ b.getLsbD 4 = s.host.causes.supply ∧
      b.getLsbD 5 = s.host.causes.configFault ∧ b.getLsbD 6 = false ∧ b.getLsbD 7 = false ∧
      ∃ e, read 0x0B = some e ∧ (∀ i, i < 6 → e.getLsbD i = s.host.enable.getLsbD i) ∧
        (s.intLine = true ↔ ∃ i, b.getLsbD i = true ∧ e.getLsbD i = true)) ∧
    read 0x00 = byte 67 ∧ read 0x01 = byte 1 ∧
    (∀ o b, (o, b) ∈ [((0x04 : BitVec 10), s.host.command), (0x06, s.host.argSlot), (0x09, s.host.argPos),
        (0x11, s.host.pocketSelect), (0x1C, s.host.stageP), (0x1D, s.host.stagePolicy), (0x1E, s.host.stageTimeout),
        (0x24, s.host.work.directive), (0x25, s.host.work.condition), (0x28, s.host.work.rank),
        (0x29, s.host.work.size), (0x2A, s.host.work.mode), (0x34, s.host.work.locKind),
        (0x35, s.host.work.locPocket), (0x36, s.host.work.home), (0x38, s.host.work.indic)] → read o = some b) ∧
    (∀ low high v, (low, high, v) ∈ [((0x07 : BitVec 10), (0x08 : BitVec 10), s.host.argTool),
        (0x26, 0x27, s.host.work.tool), (0x2B, 0x2C, s.host.work.limit), (0x2D, 0x2E, s.host.work.remaining),
        (0x2F, 0x30, s.host.work.warn)] → read low = byte v.toNat ∧ read high = byte (v.toNat / 256)) ∧
    (read 0x31 = byte s.host.work.charged.toNat ∧ read 0x32 = byte (s.host.work.charged.toNat / 256) ∧
      read 0x33 = byte (s.host.work.charged.toNat / 65536)) ∧
    (∃ b, read 0x37 = some b ∧ b.getLsbD 0 = s.host.work.flags.getLsbD 0 ∧
      b.getLsbD 1 = s.host.work.flags.getLsbD 1 ∧ ∀ i, 2 ≤ i → b.getLsbD i = false) ∧
    (∀ o : BitVec 10, o = 0x1F ∨ 0x39 ≤ o.toNat → read o = byte 0) ∧
    (∀ op n, (op, n) ∈ [(OpState.settling, 1), (.scanning, 2), (.running, 3), (.frozen, 4)] → s.opState = op →
      read 0x02 = byte n) ∧
    read 0x0C = byte s.lowestAttn ∧ read 0x0D = byte (s.queue.urgent.length + s.queue.normal.length) ∧
    (∀ f n, (f, n) ∈ [(LinkFault.none, 0), (.strobeWhileBusy, 1), (.takeWithoutAnswer, 2)] → s.link.fault = f →
      read 0x0E = byte n) ∧
    (∀ k, s.spindle = .holds k → read 0x0F = byte 1 ∧ read 0x10 = byte k.val) ∧
    (∀ sp n, (sp, n) ∈ [(Spindle.empty, 0), (.exchanging, 2), (.unknown, 3)] → s.spindle = sp →
      read 0x0F = byte n ∧ read 0x10 = byte 255) ∧
    (s.exchange = .idle → ∀ o n, (o, n) ∈ [(0x14, 0), (0x15, 0), (0x16, 0), (0x17, 255), (0x18, 0), (0x19, 255),
      (0x1A, 0), (0x1B, 0)] → read o = byte n) ∧
    (∀ x, s.exchange.open? = some x →
      read 0x15 = byte x.tag ∧ (∀ i p out, x.movement = .call i p out → read 0x16 = byte 1) ∧
      (∀ k r, x.movement = .putaway k r → read 0x16 = byte 2) ∧
      end_ x.movement.incoming 0x17 0x18 ∧ end_ x.movement.outgoing 0x19 0x1A ∧
      (s.exchange = .offered x → read 0x14 = byte 1 ∧ read 0x1B = byte 0) ∧
      (∀ timer, s.exchange = .reserved x timer → read 0x14 = byte 2 ∧ read 0x1B = byte 0) ∧
      (∀ cause, s.exchange = .suspect x cause → read 0x14 = byte 3 ∧
        read 0x1B = byte (if cause = .timeout then 1 else 2))) ∧
    (s.host.workState = .empty → read 0x20 = byte 0 ∧ read 0x21 = byte 255 ∧ read 0x22 = byte 0 ∧ read 0x23 = byte 0) ∧
    (∀ k stamp, s.host.workState = .fetched k stamp → read 0x20 = byte 1 ∧ read 0x21 = byte k.val ∧
      read 0x22 = byte stamp.toNat ∧ read 0x23 = byte (stamp.toNat / 256)) ∧
    (∀ k, s.host.workState = .new k → read 0x20 = byte 2 ∧ read 0x21 = byte k.val ∧ read 0x22 = byte 0 ∧
      read 0x23 = byte 0))

/-! ### The Commit Engine -/

/-- R152, R151: the placing of a handing, case by case, in a queue that holds no entry twice; it still holds none twice,
holds the entry handed, and never more than 129. -/
def Obligations.HandingTable : Prop :=
  ∀ (q : CommitQueue) (e : Entry) (cls : CommitClass), (q.urgent ++ q.normal).Nodup →
    (e ∈ q.urgent → q.hand e cls = q) ∧
    (e ∈ q.normal → (q.hand e .normal = q) ∧
      (q.hand e .urgent).urgent = q.urgent ++ [e] ∧
      ∃ before after, q.normal = before ++ e :: after ∧ (q.hand e .urgent).normal = before ++ after) ∧
    (e ∉ q.urgent → e ∉ q.normal →
      q.hand e .urgent = { urgent := q.urgent ++ [e], normal := q.normal } ∧
      q.hand e .normal = { urgent := q.urgent, normal := q.normal ++ [e] }) ∧
    ((q.hand e cls).urgent ++ (q.hand e cls).normal).Nodup ∧ (q.hand e cls).holds e = true ∧
    (q.hand e cls).depth ≤ 129

/-- R153, R150: in RUNNING with no commit in flight the head of the queue is taken into flight with its snapshot, stamp
and class, attempt 1, the copy that is not newest and the next generation; in every other case nothing is taken. -/
def Obligations.CommitStartTakesTheHead : Prop :=
  (∀ (s : State) (e : Entry) (cls : CommitClass) (rest : CommitQueue) (content : Snapshot) (newest : Option Newest),
    s.opState = .running → s.flight = none → s.queue.TakesHead e cls rest →
    (∃ k, e = .slot k ∧ content = .slot k (s.record k) (s.slot k).stamp ∧ newest = s.newest[k]) ∨
      (∃ c, e = .cfg ∧ s.config = some c ∧ content = .cfg c ∧ newest = s.cfgNewest) →
    ∃ f, exec .commitStart s = .next { s with queue := rest, flight := some f } ∧
      f.content = content ∧ f.cls = cls ∧ f.attempt = 1 ∧ f.confirmSet = false ∧
      (newest = none → f.target = .a ∧ f.gen = 0) ∧
      (∀ g, newest = some ⟨.a, g⟩ → f.target = .b ∧ f.gen = g + 1) ∧
      (∀ g, newest = some ⟨.b, g⟩ → f.target = .a ∧ f.gen = g + 1)) ∧
  (∀ s : State, s.opState ≠ .running ∨ s.flight ≠ none ∨ (s.queue.urgent = [] ∧ s.queue.normal = []) →
    exec .commitStart s = .next s)

/-- R154, R155, R161, R158, R81: a verify that passes. The target copy holds the snapshot and is newest. For a slot
STORE_FAULT is cleared, DIRTY too unless an entry of the slot waits, and a slot that a confirmation record awaits is
marked when the snapshot was taken after the record's claim. That the record, even fully marked, stands until a step of
its own is the timing `.later` (log 4), and that no entry is taken into flight in this step the model's reading
(log 5). -/
def Obligations.CommitAttemptPasses : Prop :=
  (∀ (s : State) (f : Flight) (k : Slot) (r : Record) (stamp : Stamp), s.flight = some f →
    f.content = .slot k r stamp → ∃ t, exec (.commitAttempt .pass .later) s = .next t ∧ t.flight = none ∧
      t.slot k = { s.slot k with dirty := (s.slot k).dirty && s.queue.holds (.slot k), storeFault := false } ∧
      (∀ j, j ≠ k → t.slot j = s.slot j ∧ t.slotCopies[j] = s.slotCopies[j] ∧ t.newest[j] = s.newest[j]) ∧
      t.slotCopies[k] = (s.slotCopies[k]).put f.target (.valid r f.gen) ∧ t.newest[k] = some ⟨f.target, f.gen⟩ ∧
      (∀ c from_, s.confirmation = some c → (k, false) ∈ c.waiting → s.confirmFrom[k] = some from_ →
        (stamp - from_).toNat ≤ 32767 →
        t.confirmation = some { c with waiting := c.waiting.map (fun e => if e.1 = k then (k, true) else e) }) ∧
      ((∀ c, s.confirmation = some c → (k, false) ∉ c.waiting) ∨
        (∀ from_, s.confirmFrom[k] = some from_ → 32767 < (stamp - from_).toNat) →
        t.confirmation = s.confirmation) ∧
      t = { s with flight := t.flight, image := t.image, slotCopies := t.slotCopies, newest := t.newest,
                   confirmation := t.confirmation }) ∧
  (∀ (s : State) (f : Flight) (c : Configuration), s.flight = some f → f.content = .cfg c →
    exec (.commitAttempt .pass .later) s = .next
      { s with flight := none, cfgCopies := s.cfgCopies.put f.target (.valid c f.gen),
               cfgNewest := some ⟨f.target, f.gen⟩ })

/-- R154, R156, R161, R158, R81, R82: a verify that fails leaves the target invalid. Attempts 1 and 2 are followed by
another; the third is the failure: STORE_FAULT, ATTN and DIRTY, the slot out of the queue unless an exchange claim has
set its confirm-from stamp meanwhile, and a first failure notice to a record that awaits the slot; for CFG the
CONFIG_FAULT cause. With the notice in the step, a record that can end does so (log 4). That no entry is taken into
flight in this step is the model's reading (log 5), and that an attempt with no flight changes nothing its choice
(log 7). -/
def Obligations.CommitAttemptFails : Prop :=
  (∀ (s : State) (f : Flight), s.flight = some f → f.attempt < 3 →
    ∃ t, exec (.commitAttempt .fail .later) s = .next t ∧ t.flight = some { f with attempt := f.attempt + 1 } ∧
      (∀ k : Slot, t.slotCopies[k] =
        if f.content.entry = .slot k then (s.slotCopies[k]).put f.target .invalid else s.slotCopies[k]) ∧
      t.cfgCopies = (if f.content.entry = .cfg then s.cfgCopies.put f.target .invalid else s.cfgCopies) ∧
      t = { s with flight := t.flight, slotCopies := t.slotCopies, cfgCopies := t.cfgCopies }) ∧
  (∀ (s : State) (f : Flight) (k : Slot) (r : Record) (stamp : Stamp), s.flight = some f → 3 ≤ f.attempt →
    f.content = .slot k r stamp → ∃ t, exec (.commitAttempt .fail .later) s = .next t ∧ t.flight = none ∧
      t.slot k = { s.slot k with storeFault := true, attn := true, dirty := true } ∧
      (∀ j, j ≠ k → t.slot j = s.slot j ∧ t.slotCopies[j] = s.slotCopies[j]) ∧
      t.slotCopies[k] = (s.slotCopies[k]).put f.target .invalid ∧
      (f.confirmSet = true → t.queue = s.queue) ∧
      (f.confirmSet = false → t.queue.urgent = s.queue.urgent.filter (fun e => e ≠ .slot k) ∧
        t.queue.normal = s.queue.normal.filter (fun e => e ≠ .slot k)) ∧
      (∀ c from_, s.confirmation = some c → (k, false) ∈ c.waiting → s.confirmFrom[k] = some from_ →
        (stamp - from_).toNat ≤ 32767 →
        (c.failed = none → t.confirmation = some { c with failed := some k }) ∧
        (c.failed ≠ none → t.confirmation = some c)) ∧
      ((∀ c, s.confirmation = some c → (k, false) ∉ c.waiting) ∨
        (∀ from_, s.confirmFrom[k] = some from_ → 32767 < (stamp - from_).toNat) →
        t.confirmation = s.confirmation) ∧
      t = { s with flight := t.flight, image := t.image, slotCopies := t.slotCopies, queue := t.queue,
                   confirmation := t.confirmation }) ∧
  (∀ (s : State) (f : Flight) (c : Configuration), s.flight = some f → 3 ≤ f.attempt → f.content = .cfg c →
    exec (.commitAttempt .fail .later) s = .next
      { s with flight := none, cfgCopies := s.cfgCopies.put f.target .invalid
               queue := { urgent := s.queue.urgent.filter (fun e => e ≠ .cfg)
                          normal := s.queue.normal.filter (fun e => e ≠ .cfg) }
               host := { s.host with causes := { s.host.causes with configFault := true } } }) ∧
  (∀ (s t : State) (v : Verify), exec (.commitAttempt v .later) s = .next t →
    exec (.commitAttempt v .inStep) s = exec .answerRelease t) ∧
  (∀ (s : State) (v : Verify), s.flight = none → exec (.commitAttempt v .later) s = .next s)

/-! ### The start-up scan -/

/-- R168, R169, R170, R171, R172, R173, R174, R134, R148, R150, R160: the completion of the scan enters RUNNING with the
loaded configuration, the image loaded from the newest valid copies and repaired, its flags, the queue of the handings
with its head taken into flight in the same step, the spindle state derived from it and the state of the other blocks;
the array and the link are as they were, and of the Host Port the arguments, POCKET_SELECT, the work-record fields and
the command state. -/
def Obligations.ScanCompletes : Prop :=
  ∀ s : State, s.opState = .scanning → ∃ t c, exec .scanComplete s = .next t ∧ t.opState = .running ∧
    t.imageHeld = true ∧ t.config = some c ∧
    (∀ n v, s.cfgCopies.newestValid = some (n, v) → c = v) ∧
    (s.cfgCopies.newestValid = none → c = { pockets := 24, policy := .fixed, timeout := 30 }) ∧
    (t.host.causes.configFault = true ↔
      s.cfgCopies.newestValid = none ∧ ¬ (s.cfgCopies.a = .erased ∧ s.cfgCopies.b = .erased)) ∧
    t.host.causes = { command := false, suspect := false, link := false, supply := false,
                      configFault := t.host.causes.configFault } ∧
    (∀ k : Slot,
      let erased := (s.slotCopies[k]).a = .erased ∧ (s.slotCopies[k]).b = .erased
      (∀ n r, (s.slotCopies[k]).newestValid = some (n, r) →
        s.loadedImage[k] = { fields := r, attn := false, dirty := false, storeFault := false, stamp := 0 }) ∧
      ((s.slotCopies[k]).newestValid = none → erased → s.loadedImage[k] =
        { fields := Record.vacant, attn := false, dirty := false, storeFault := false, stamp := 0 }) ∧
      ((s.slotCopies[k]).newestValid = none → ¬ erased → s.loadedImage[k] =
        { fields := Record.vacant, attn := true, dirty := true, storeFault := true, stamp := 0 })) ∧
    t.image = (scanRepairs c.pockets s.loadedImage).image ∧
    ScanRepaired c.pockets (fun k => (s.loadedImage[k]).fields) t.record ∧ ScanFlagged s.loadedImage t.image ∧
    (∃ q, ScanQueued c.pockets (fun k => (s.loadedImage[k]).fields) t.record q ∧
      (q.urgent = [] → q.normal = [] → t.flight = none ∧ t.queue = q) ∧
      (∀ k cls rest, q.TakesHead (.slot k) cls rest → t.queue = rest ∧ ∃ f, t.flight = some f ∧
        f.content = .slot k (t.record k) 0 ∧ f.cls = cls ∧ f.attempt = 1 ∧ f.confirmSet = false ∧
        (∀ g, t.newest[k] = some ⟨.a, g⟩ → f.target = .b ∧ f.gen = g + 1) ∧
        (∀ g, t.newest[k] = some ⟨.b, g⟩ → f.target = .a ∧ f.gen = g + 1))) ∧
    (∀ k, t.spindle = .holds k → (t.record k).condition ≠ .vacant ∧ (t.record k).location = .spindle) ∧
    (∀ k, (t.record k).condition ≠ .vacant → (t.record k).location = .spindle → t.spindle = .holds k) ∧
    (t.spindle = .unknown ↔
      (∀ k, (t.record k).condition ≠ .vacant → (t.record k).location ≠ .spindle) ∧
        ∃ k p, (t.record k).condition ≠ .vacant ∧ (t.record k).location = .unknown p) ∧
    t.spindle ≠ .exchanging ∧
    t.exchange = .idle ∧ t.nextTag = 1 ∧ t.confirmation = none ∧ (∀ k : Slot, t.confirmFrom[k] = none) ∧
    (∀ k : Slot, t.newest[k] = (s.slotCopies[k]).newestValid.map Prod.fst) ∧
    t.cfgNewest = s.cfgCopies.newestValid.map Prod.fst ∧
    t.host.workState = .empty ∧ t.host.enable = 0 ∧
    t.host.stageP = BitVec.ofNat 8 c.pockets ∧ t.host.stageTimeout = BitVec.ofNat 8 c.timeout ∧
    t.host.stagePolicy = (if c.policy = .fixed then 0 else 1) ∧
    t.host = { s.host with workState := t.host.workState, stageP := t.host.stageP, stagePolicy := t.host.stagePolicy,
                           stageTimeout := t.host.stageTimeout, causes := t.host.causes, enable := t.host.enable } ∧
    t = { s with opState := t.opState, settleRunning := false, imageHeld := t.imageHeld, image := t.image,
                 config := t.config, spindle := t.spindle, exchange := t.exchange, nextTag := t.nextTag,
                 confirmation := t.confirmation, host := t.host, queue := t.queue, flight := t.flight,
                 newest := t.newest, cfgNewest := t.cfgNewest, confirmFrom := t.confirmFrom }

/-- R170, R171, R172, what the scan's repairs do and the laws that they establish, whatever the array held: the repaired
records, their flags and the queue of the handings, with the slots that each of the five passes repairs, the slots of the
fifth by the examinations that repair them; no location is in transit, every pocket and home pocket lies in the
ring, at most one tool stands in a pocket and in the spindle, no tool stands beside a LARGE one (R56, R61, R64), and of
two slots with one tool number and rank the higher has HOLD set (R35). -/
def Obligations.ScanRepairsEstablishTheLaws : Prop :=
  ∀ (P : Nat) (image : Image) (w : ScanWork), 8 ≤ P → w = scanRepairs P image →
    ScanRepaired P (fun k => (image[k]).fields) w.record ∧ ScanFlagged image w.image ∧
    ScanQueued P (fun k => (image[k]).fields) w.record w.queue ∧
    (∀ k p, (w.record k).condition ≠ .vacant →
      (w.record k).location ≠ .transitIn p ∧ (w.record k).location ≠ .transitBack p) ∧
    (∀ k p, (w.record k).condition ≠ .vacant → (w.record k).location.pocketPart = some p →
      p ≤ P ∧ ((image[k]).fields.numbered → 1 ≤ p)) ∧
    (∀ k, (w.record k).condition ≠ .vacant → (w.record k).home ≤ P) ∧
    (∀ j k p, (w.record j).condition ≠ .vacant → (w.record k).condition ≠ .vacant →
      (w.record j).location = .pocket p → (w.record k).location = .pocket p → j = k) ∧
    (∀ j k, (w.record j).condition ≠ .vacant → (w.record k).condition ≠ .vacant →
      (w.record j).location = .spindle → (w.record k).location = .spindle → j = k) ∧
    (∀ j k p, (w.record j).condition ≠ .vacant → (w.record k).condition ≠ .vacant → 1 ≤ p →
      (w.record j).size = .large → (w.record j).location = .pocket p →
      (w.record k).location ≠ .pocket (neighbourBefore P p) ∧ (w.record k).location ≠ .pocket (neighbourAfter P p)) ∧
    (∀ j k, (w.record k).condition ≠ .vacant → ranksBelow w.record j k → (w.record k).hold = true) ∧
    (∀ k, w.record k ≠ (image[k]).fields → (w.image[k]).attn = true ∧ (w.image[k]).dirty = true)

/-! ### Invariants that every step keeps -/

/-- R4, R8, R12, R20, R35, R61, R74, R75, R76: every step keeps the agreement of the image, the exchange context and the
spindle: the life law and the ranges of the numbers on every record of the image, of the valid copies and of the flight;
a VACANT slot at its zero values; the locations that the exchange context states; at most one slot in the spindle, and
the spindle state that says so; of two non-vacant slots with one tool number and rank the higher with HOLD set; and the
tag of an open exchange and the next tag from 1 to 15. That these numbers are held without a width of their own is the
model's choice (log 19). -/
def Obligations.StepKeepsTheTable : Prop :=
  ∀ s t : State, s.TableSound → step s = .next t → t.TableSound

/-- R15, R137, R150, R151, R160: every step keeps the commit law: no entry twice in the queue, a flight in RUNNING alone,
DIRTY exactly on the slots that wait or are faulted, a clear DIRTY durable, and the records of newest copies true of the
array, so that no write reaches a newest valid copy. -/
def Obligations.StepKeepsTheCommitLaw : Prop :=
  ∀ s t : State, s.CommitSound → step s = .next t → t.CommitSound

/-- R96, R99, R102: every step keeps the link's parts in agreement with its phase and with the word presented. -/
def Obligations.StepKeepsTheLink : Prop :=
  ∀ s t : State, s.link.Sound → step s = .next t → t.link.Sound

/-- R56, R64, R10, R55, R83, R86, R93, R170: every step, the completion of a scan among them, keeps the pocket law and
the LARGE-neighbour law, of the magazine as it stands and as either end of the open exchange would leave it, so that
those ends are valid without a test; it keeps pocket numbers from 1 on, a pocket count of 8 to 120 and a timeout of 1
to 255 in the image, in the valid copies of the array and in the flight; every pocket part and home pocket of the image
within the ring (R4, R71); and a running timer from 1 to 255 seconds (R74). That these numbers are held without a width
of their own is the model's choice (log 19). -/
def Obligations.StepKeepsThePlaces : Prop :=
  ∀ s t : State, s.TableSound → s.PlacesSound → step s = .next t → t.PlacesSound

/-- The invariants hold of the state after power-on (R1, R96, R160; log 1). -/
def Obligations.ResetStateIsSound : Prop :=
  State.reset.TableSound ∧ State.reset.CommitSound ∧ State.reset.link.Sound ∧ State.reset.PlacesSound
end

