-- ==== Sys2Proof/Laws/State.lean ====
section
/-! SUPPORT. One lemma per field per update of the state, true by unfolding the update, so that no later proof unfolds a
record update. -/

namespace Sys2Proof.Machine

set_option Elab.async false

/-! ### Plain updates -/

@[simp] theorem State.setSlot_opState (s : State) (k : Slot) (x : SlotState) :
    (s.setSlot k x).opState = s.opState := rfl
@[simp] theorem State.setSlot_settleRunning (s : State) (k : Slot) (x : SlotState) :
    (s.setSlot k x).settleRunning = s.settleRunning := rfl
@[simp] theorem State.setSlot_imageHeld (s : State) (k : Slot) (x : SlotState) :
    (s.setSlot k x).imageHeld = s.imageHeld := rfl
@[simp] theorem State.setSlot_resetLow (s : State) (k : Slot) (x : SlotState) :
    (s.setSlot k x).resetLow = s.resetLow := rfl
@[simp] theorem State.setSlot_config (s : State) (k : Slot) (x : SlotState) :
    (s.setSlot k x).config = s.config := rfl
@[simp] theorem State.setSlot_spindle (s : State) (k : Slot) (x : SlotState) :
    (s.setSlot k x).spindle = s.spindle := rfl
@[simp] theorem State.setSlot_exchange (s : State) (k : Slot) (x : SlotState) :
    (s.setSlot k x).exchange = s.exchange := rfl
@[simp] theorem State.setSlot_nextTag (s : State) (k : Slot) (x : SlotState) :
    (s.setSlot k x).nextTag = s.nextTag := rfl
@[simp] theorem State.setSlot_confirmation (s : State) (k : Slot) (x : SlotState) :
    (s.setSlot k x).confirmation = s.confirmation := rfl
@[simp] theorem State.setSlot_link (s : State) (k : Slot) (x : SlotState) :
    (s.setSlot k x).link = s.link := rfl
@[simp] theorem State.setSlot_host (s : State) (k : Slot) (x : SlotState) :
    (s.setSlot k x).host = s.host := rfl
@[simp] theorem State.setSlot_queue (s : State) (k : Slot) (x : SlotState) :
    (s.setSlot k x).queue = s.queue := rfl
@[simp] theorem State.setSlot_flight (s : State) (k : Slot) (x : SlotState) :
    (s.setSlot k x).flight = s.flight := rfl
@[simp] theorem State.setSlot_newest (s : State) (k : Slot) (x : SlotState) :
    (s.setSlot k x).newest = s.newest := rfl
@[simp] theorem State.setSlot_cfgNewest (s : State) (k : Slot) (x : SlotState) :
    (s.setSlot k x).cfgNewest = s.cfgNewest := rfl
@[simp] theorem State.setSlot_confirmFrom (s : State) (k : Slot) (x : SlotState) :
    (s.setSlot k x).confirmFrom = s.confirmFrom := rfl
@[simp] theorem State.setSlot_slotCopies (s : State) (k : Slot) (x : SlotState) :
    (s.setSlot k x).slotCopies = s.slotCopies := rfl
@[simp] theorem State.setSlot_lostAnswer (s : State) (k : Slot) (x : SlotState) :
    (s.setSlot k x).lostAnswer = s.lostAnswer := rfl
@[simp] theorem State.setSlot_cfgCopies (s : State) (k : Slot) (x : SlotState) :
    (s.setSlot k x).cfgCopies = s.cfgCopies := rfl
@[simp] theorem State.setSlot_pending (s : State) (k : Slot) (x : SlotState) :
    (s.setSlot k x).pending = s.pending := rfl

@[simp] theorem State.setAttn_opState (s : State) (k : Slot) (v : Bool) :
    (s.setAttn k v).opState = s.opState := rfl
@[simp] theorem State.setAttn_settleRunning (s : State) (k : Slot) (v : Bool) :
    (s.setAttn k v).settleRunning = s.settleRunning := rfl
@[simp] theorem State.setAttn_imageHeld (s : State) (k : Slot) (v : Bool) :
    (s.setAttn k v).imageHeld = s.imageHeld := rfl
@[simp] theorem State.setAttn_resetLow (s : State) (k : Slot) (v : Bool) :
    (s.setAttn k v).resetLow = s.resetLow := rfl
@[simp] theorem State.setAttn_config (s : State) (k : Slot) (v : Bool) :
    (s.setAttn k v).config = s.config := rfl
@[simp] theorem State.setAttn_spindle (s : State) (k : Slot) (v : Bool) :
    (s.setAttn k v).spindle = s.spindle := rfl
@[simp] theorem State.setAttn_exchange (s : State) (k : Slot) (v : Bool) :
    (s.setAttn k v).exchange = s.exchange := rfl
@[simp] theorem State.setAttn_nextTag (s : State) (k : Slot) (v : Bool) :
    (s.setAttn k v).nextTag = s.nextTag := rfl
@[simp] theorem State.setAttn_confirmation (s : State) (k : Slot) (v : Bool) :
    (s.setAttn k v).confirmation = s.confirmation := rfl
@[simp] theorem State.setAttn_link (s : State) (k : Slot) (v : Bool) : (s.setAttn k v).link = s.link := rfl
@[simp] theorem State.setAttn_host (s : State) (k : Slot) (v : Bool) : (s.setAttn k v).host = s.host := rfl
@[simp] theorem State.setAttn_queue (s : State) (k : Slot) (v : Bool) : (s.setAttn k v).queue = s.queue := rfl
@[simp] theorem State.setAttn_flight (s : State) (k : Slot) (v : Bool) :
    (s.setAttn k v).flight = s.flight := rfl
@[simp] theorem State.setAttn_newest (s : State) (k : Slot) (v : Bool) :
    (s.setAttn k v).newest = s.newest := rfl
@[simp] theorem State.setAttn_cfgNewest (s : State) (k : Slot) (v : Bool) :
    (s.setAttn k v).cfgNewest = s.cfgNewest := rfl
@[simp] theorem State.setAttn_confirmFrom (s : State) (k : Slot) (v : Bool) :
    (s.setAttn k v).confirmFrom = s.confirmFrom := rfl
@[simp] theorem State.setAttn_slotCopies (s : State) (k : Slot) (v : Bool) :
    (s.setAttn k v).slotCopies = s.slotCopies := rfl
@[simp] theorem State.setAttn_lostAnswer (s : State) (k : Slot) (v : Bool) :
    (s.setAttn k v).lostAnswer = s.lostAnswer := rfl
@[simp] theorem State.setAttn_cfgCopies (s : State) (k : Slot) (v : Bool) :
    (s.setAttn k v).cfgCopies = s.cfgCopies := rfl
@[simp] theorem State.setAttn_pending (s : State) (k : Slot) (v : Bool) :
    (s.setAttn k v).pending = s.pending := rfl

@[simp] theorem State.setLink_opState (s : State) (l : Link) : (s.setLink l).opState = s.opState := rfl
@[simp] theorem State.setLink_settleRunning (s : State) (l : Link) :
    (s.setLink l).settleRunning = s.settleRunning := rfl
@[simp] theorem State.setLink_imageHeld (s : State) (l : Link) : (s.setLink l).imageHeld = s.imageHeld := rfl
@[simp] theorem State.setLink_resetLow (s : State) (l : Link) : (s.setLink l).resetLow = s.resetLow := rfl
@[simp] theorem State.setLink_image (s : State) (l : Link) : (s.setLink l).image = s.image := rfl
@[simp] theorem State.setLink_config (s : State) (l : Link) : (s.setLink l).config = s.config := rfl
@[simp] theorem State.setLink_spindle (s : State) (l : Link) : (s.setLink l).spindle = s.spindle := rfl
@[simp] theorem State.setLink_exchange (s : State) (l : Link) : (s.setLink l).exchange = s.exchange := rfl
@[simp] theorem State.setLink_nextTag (s : State) (l : Link) : (s.setLink l).nextTag = s.nextTag := rfl
@[simp] theorem State.setLink_confirmation (s : State) (l : Link) :
    (s.setLink l).confirmation = s.confirmation := rfl
@[simp] theorem State.setLink_host (s : State) (l : Link) : (s.setLink l).host = s.host := rfl
@[simp] theorem State.setLink_queue (s : State) (l : Link) : (s.setLink l).queue = s.queue := rfl
@[simp] theorem State.setLink_flight (s : State) (l : Link) : (s.setLink l).flight = s.flight := rfl
@[simp] theorem State.setLink_newest (s : State) (l : Link) : (s.setLink l).newest = s.newest := rfl
@[simp] theorem State.setLink_cfgNewest (s : State) (l : Link) : (s.setLink l).cfgNewest = s.cfgNewest := rfl
@[simp] theorem State.setLink_confirmFrom (s : State) (l : Link) :
    (s.setLink l).confirmFrom = s.confirmFrom := rfl
@[simp] theorem State.setLink_slotCopies (s : State) (l : Link) :
    (s.setLink l).slotCopies = s.slotCopies := rfl
@[simp] theorem State.setLink_lostAnswer (s : State) (l : Link) : (s.setLink l).lostAnswer = s.lostAnswer := rfl
@[simp] theorem State.setLink_cfgCopies (s : State) (l : Link) : (s.setLink l).cfgCopies = s.cfgCopies := rfl
@[simp] theorem State.setLink_pending (s : State) (l : Link) : (s.setLink l).pending = s.pending := rfl

@[simp] theorem State.answer_opState (s : State) (a : Answer) : (s.answer a).opState = s.opState := rfl
@[simp] theorem State.answer_settleRunning (s : State) (a : Answer) :
    (s.answer a).settleRunning = s.settleRunning := rfl
@[simp] theorem State.answer_imageHeld (s : State) (a : Answer) : (s.answer a).imageHeld = s.imageHeld := rfl
@[simp] theorem State.answer_resetLow (s : State) (a : Answer) : (s.answer a).resetLow = s.resetLow := rfl
@[simp] theorem State.answer_image (s : State) (a : Answer) : (s.answer a).image = s.image := rfl
@[simp] theorem State.answer_config (s : State) (a : Answer) : (s.answer a).config = s.config := rfl
@[simp] theorem State.answer_spindle (s : State) (a : Answer) : (s.answer a).spindle = s.spindle := rfl
@[simp] theorem State.answer_exchange (s : State) (a : Answer) : (s.answer a).exchange = s.exchange := rfl
@[simp] theorem State.answer_nextTag (s : State) (a : Answer) : (s.answer a).nextTag = s.nextTag := rfl
@[simp] theorem State.answer_confirmation (s : State) (a : Answer) :
    (s.answer a).confirmation = s.confirmation := rfl
@[simp] theorem State.answer_host (s : State) (a : Answer) : (s.answer a).host = s.host := rfl
@[simp] theorem State.answer_queue (s : State) (a : Answer) : (s.answer a).queue = s.queue := rfl
@[simp] theorem State.answer_flight (s : State) (a : Answer) : (s.answer a).flight = s.flight := rfl
@[simp] theorem State.answer_newest (s : State) (a : Answer) : (s.answer a).newest = s.newest := rfl
@[simp] theorem State.answer_cfgNewest (s : State) (a : Answer) : (s.answer a).cfgNewest = s.cfgNewest := rfl
@[simp] theorem State.answer_confirmFrom (s : State) (a : Answer) :
    (s.answer a).confirmFrom = s.confirmFrom := rfl
@[simp] theorem State.answer_slotCopies (s : State) (a : Answer) :
    (s.answer a).slotCopies = s.slotCopies := rfl
@[simp] theorem State.answer_lostAnswer (s : State) (a : Answer) : (s.answer a).lostAnswer = s.lostAnswer := rfl
@[simp] theorem State.answer_cfgCopies (s : State) (a : Answer) : (s.answer a).cfgCopies = s.cfgCopies := rfl
@[simp] theorem State.answer_pending (s : State) (a : Answer) : (s.answer a).pending = s.pending := rfl

@[simp] theorem State.linkFault_opState (s : State) (x : LinkFault) :
    (s.linkFault x).opState = s.opState := rfl
@[simp] theorem State.linkFault_settleRunning (s : State) (x : LinkFault) :
    (s.linkFault x).settleRunning = s.settleRunning := rfl
@[simp] theorem State.linkFault_imageHeld (s : State) (x : LinkFault) :
    (s.linkFault x).imageHeld = s.imageHeld := rfl
@[simp] theorem State.linkFault_resetLow (s : State) (x : LinkFault) :
    (s.linkFault x).resetLow = s.resetLow := rfl
@[simp] theorem State.linkFault_image (s : State) (x : LinkFault) : (s.linkFault x).image = s.image := rfl
@[simp] theorem State.linkFault_config (s : State) (x : LinkFault) : (s.linkFault x).config = s.config := rfl
@[simp] theorem State.linkFault_spindle (s : State) (x : LinkFault) :
    (s.linkFault x).spindle = s.spindle := rfl
@[simp] theorem State.linkFault_exchange (s : State) (x : LinkFault) :
    (s.linkFault x).exchange = s.exchange := rfl
@[simp] theorem State.linkFault_nextTag (s : State) (x : LinkFault) :
    (s.linkFault x).nextTag = s.nextTag := rfl
@[simp] theorem State.linkFault_confirmation (s : State) (x : LinkFault) :
    (s.linkFault x).confirmation = s.confirmation := rfl
@[simp] theorem State.linkFault_queue (s : State) (x : LinkFault) : (s.linkFault x).queue = s.queue := rfl
@[simp] theorem State.linkFault_flight (s : State) (x : LinkFault) : (s.linkFault x).flight = s.flight := rfl
@[simp] theorem State.linkFault_newest (s : State) (x : LinkFault) : (s.linkFault x).newest = s.newest := rfl
@[simp] theorem State.linkFault_cfgNewest (s : State) (x : LinkFault) :
    (s.linkFault x).cfgNewest = s.cfgNewest := rfl
@[simp] theorem State.linkFault_confirmFrom (s : State) (x : LinkFault) :
    (s.linkFault x).confirmFrom = s.confirmFrom := rfl
@[simp] theorem State.linkFault_slotCopies (s : State) (x : LinkFault) :
    (s.linkFault x).slotCopies = s.slotCopies := rfl
@[simp] theorem State.linkFault_lostAnswer (s : State) (x : LinkFault) :
    (s.linkFault x).lostAnswer = s.lostAnswer := rfl
@[simp] theorem State.linkFault_cfgCopies (s : State) (x : LinkFault) :
    (s.linkFault x).cfgCopies = s.cfgCopies := rfl
@[simp] theorem State.linkFault_pending (s : State) (x : LinkFault) :
    (s.linkFault x).pending = s.pending := rfl

@[simp] theorem State.setCauses_opState (s : State) (c : Causes) : (s.setCauses c).opState = s.opState := rfl
@[simp] theorem State.setCauses_settleRunning (s : State) (c : Causes) :
    (s.setCauses c).settleRunning = s.settleRunning := rfl
@[simp] theorem State.setCauses_imageHeld (s : State) (c : Causes) :
    (s.setCauses c).imageHeld = s.imageHeld := rfl
@[simp] theorem State.setCauses_resetLow (s : State) (c : Causes) :
    (s.setCauses c).resetLow = s.resetLow := rfl
@[simp] theorem State.setCauses_image (s : State) (c : Causes) : (s.setCauses c).image = s.image := rfl
@[simp] theorem State.setCauses_config (s : State) (c : Causes) : (s.setCauses c).config = s.config := rfl
@[simp] theorem State.setCauses_spindle (s : State) (c : Causes) : (s.setCauses c).spindle = s.spindle := rfl
@[simp] theorem State.setCauses_exchange (s : State) (c : Causes) :
    (s.setCauses c).exchange = s.exchange := rfl
@[simp] theorem State.setCauses_nextTag (s : State) (c : Causes) : (s.setCauses c).nextTag = s.nextTag := rfl
@[simp] theorem State.setCauses_confirmation (s : State) (c : Causes) :
    (s.setCauses c).confirmation = s.confirmation := rfl
@[simp] theorem State.setCauses_link (s : State) (c : Causes) : (s.setCauses c).link = s.link := rfl
@[simp] theorem State.setCauses_queue (s : State) (c : Causes) : (s.setCauses c).queue = s.queue := rfl
@[simp] theorem State.setCauses_flight (s : State) (c : Causes) : (s.setCauses c).flight = s.flight := rfl
@[simp] theorem State.setCauses_newest (s : State) (c : Causes) : (s.setCauses c).newest = s.newest := rfl
@[simp] theorem State.setCauses_cfgNewest (s : State) (c : Causes) :
    (s.setCauses c).cfgNewest = s.cfgNewest := rfl
@[simp] theorem State.setCauses_confirmFrom (s : State) (c : Causes) :
    (s.setCauses c).confirmFrom = s.confirmFrom := rfl
@[simp] theorem State.setCauses_slotCopies (s : State) (c : Causes) :
    (s.setCauses c).slotCopies = s.slotCopies := rfl
@[simp] theorem State.setCauses_lostAnswer (s : State) (c : Causes) :
    (s.setCauses c).lostAnswer = s.lostAnswer := rfl
@[simp] theorem State.setCauses_cfgCopies (s : State) (c : Causes) :
    (s.setCauses c).cfgCopies = s.cfgCopies := rfl
@[simp] theorem State.setCauses_pending (s : State) (c : Causes) : (s.setCauses c).pending = s.pending := rfl

@[simp] theorem State.raiseSupply_opState (s : State) : (s.raiseSupply).opState = s.opState := rfl
@[simp] theorem State.raiseSupply_settleRunning (s : State) :
    (s.raiseSupply).settleRunning = s.settleRunning := rfl
@[simp] theorem State.raiseSupply_imageHeld (s : State) : (s.raiseSupply).imageHeld = s.imageHeld := rfl
@[simp] theorem State.raiseSupply_resetLow (s : State) : (s.raiseSupply).resetLow = s.resetLow := rfl
@[simp] theorem State.raiseSupply_image (s : State) : (s.raiseSupply).image = s.image := rfl
@[simp] theorem State.raiseSupply_config (s : State) : (s.raiseSupply).config = s.config := rfl
@[simp] theorem State.raiseSupply_spindle (s : State) : (s.raiseSupply).spindle = s.spindle := rfl
@[simp] theorem State.raiseSupply_exchange (s : State) : (s.raiseSupply).exchange = s.exchange := rfl
@[simp] theorem State.raiseSupply_nextTag (s : State) : (s.raiseSupply).nextTag = s.nextTag := rfl
@[simp] theorem State.raiseSupply_confirmation (s : State) :
    (s.raiseSupply).confirmation = s.confirmation := rfl
@[simp] theorem State.raiseSupply_link (s : State) : (s.raiseSupply).link = s.link := rfl
@[simp] theorem State.raiseSupply_queue (s : State) : (s.raiseSupply).queue = s.queue := rfl
@[simp] theorem State.raiseSupply_flight (s : State) : (s.raiseSupply).flight = s.flight := rfl
@[simp] theorem State.raiseSupply_newest (s : State) : (s.raiseSupply).newest = s.newest := rfl
@[simp] theorem State.raiseSupply_cfgNewest (s : State) : (s.raiseSupply).cfgNewest = s.cfgNewest := rfl
@[simp] theorem State.raiseSupply_confirmFrom (s : State) : (s.raiseSupply).confirmFrom = s.confirmFrom := rfl
@[simp] theorem State.raiseSupply_slotCopies (s : State) : (s.raiseSupply).slotCopies = s.slotCopies := rfl
@[simp] theorem State.raiseSupply_lostAnswer (s : State) : (s.raiseSupply).lostAnswer = s.lostAnswer := rfl
@[simp] theorem State.raiseSupply_cfgCopies (s : State) : (s.raiseSupply).cfgCopies = s.cfgCopies := rfl
@[simp] theorem State.raiseSupply_pending (s : State) : (s.raiseSupply).pending = s.pending := rfl

@[simp] theorem State.complete_opState (s : State) (r : Result) : (s.complete r).opState = s.opState := rfl
@[simp] theorem State.complete_settleRunning (s : State) (r : Result) :
    (s.complete r).settleRunning = s.settleRunning := rfl
@[simp] theorem State.complete_imageHeld (s : State) (r : Result) :
    (s.complete r).imageHeld = s.imageHeld := rfl
@[simp] theorem State.complete_resetLow (s : State) (r : Result) : (s.complete r).resetLow = s.resetLow := rfl
@[simp] theorem State.complete_image (s : State) (r : Result) : (s.complete r).image = s.image := rfl
@[simp] theorem State.complete_config (s : State) (r : Result) : (s.complete r).config = s.config := rfl
@[simp] theorem State.complete_spindle (s : State) (r : Result) : (s.complete r).spindle = s.spindle := rfl
@[simp] theorem State.complete_exchange (s : State) (r : Result) : (s.complete r).exchange = s.exchange := rfl
@[simp] theorem State.complete_nextTag (s : State) (r : Result) : (s.complete r).nextTag = s.nextTag := rfl
@[simp] theorem State.complete_confirmation (s : State) (r : Result) :
    (s.complete r).confirmation = s.confirmation := rfl
@[simp] theorem State.complete_link (s : State) (r : Result) : (s.complete r).link = s.link := rfl
@[simp] theorem State.complete_queue (s : State) (r : Result) : (s.complete r).queue = s.queue := rfl
@[simp] theorem State.complete_flight (s : State) (r : Result) : (s.complete r).flight = s.flight := rfl
@[simp] theorem State.complete_newest (s : State) (r : Result) : (s.complete r).newest = s.newest := rfl
@[simp] theorem State.complete_cfgNewest (s : State) (r : Result) :
    (s.complete r).cfgNewest = s.cfgNewest := rfl
@[simp] theorem State.complete_confirmFrom (s : State) (r : Result) :
    (s.complete r).confirmFrom = s.confirmFrom := rfl
@[simp] theorem State.complete_slotCopies (s : State) (r : Result) :
    (s.complete r).slotCopies = s.slotCopies := rfl
@[simp] theorem State.complete_lostAnswer (s : State) (r : Result) :
    (s.complete r).lostAnswer = s.lostAnswer := rfl
@[simp] theorem State.complete_cfgCopies (s : State) (r : Result) :
    (s.complete r).cfgCopies = s.cfgCopies := rfl
@[simp] theorem State.complete_pending (s : State) (r : Result) : (s.complete r).pending = s.pending := rfl

@[simp] theorem State.fillWork_opState (s : State) (k : Slot) : (s.fillWork k).opState = s.opState := rfl
@[simp] theorem State.fillWork_settleRunning (s : State) (k : Slot) :
    (s.fillWork k).settleRunning = s.settleRunning := rfl
@[simp] theorem State.fillWork_imageHeld (s : State) (k : Slot) :
    (s.fillWork k).imageHeld = s.imageHeld := rfl
@[simp] theorem State.fillWork_resetLow (s : State) (k : Slot) : (s.fillWork k).resetLow = s.resetLow := rfl
@[simp] theorem State.fillWork_image (s : State) (k : Slot) : (s.fillWork k).image = s.image := rfl
@[simp] theorem State.fillWork_config (s : State) (k : Slot) : (s.fillWork k).config = s.config := rfl
@[simp] theorem State.fillWork_spindle (s : State) (k : Slot) : (s.fillWork k).spindle = s.spindle := rfl
@[simp] theorem State.fillWork_exchange (s : State) (k : Slot) : (s.fillWork k).exchange = s.exchange := rfl
@[simp] theorem State.fillWork_nextTag (s : State) (k : Slot) : (s.fillWork k).nextTag = s.nextTag := rfl
@[simp] theorem State.fillWork_confirmation (s : State) (k : Slot) :
    (s.fillWork k).confirmation = s.confirmation := rfl
@[simp] theorem State.fillWork_link (s : State) (k : Slot) : (s.fillWork k).link = s.link := rfl
@[simp] theorem State.fillWork_queue (s : State) (k : Slot) : (s.fillWork k).queue = s.queue := rfl
@[simp] theorem State.fillWork_flight (s : State) (k : Slot) : (s.fillWork k).flight = s.flight := rfl
@[simp] theorem State.fillWork_newest (s : State) (k : Slot) : (s.fillWork k).newest = s.newest := rfl
@[simp] theorem State.fillWork_cfgNewest (s : State) (k : Slot) :
    (s.fillWork k).cfgNewest = s.cfgNewest := rfl
@[simp] theorem State.fillWork_confirmFrom (s : State) (k : Slot) :
    (s.fillWork k).confirmFrom = s.confirmFrom := rfl
@[simp] theorem State.fillWork_slotCopies (s : State) (k : Slot) :
    (s.fillWork k).slotCopies = s.slotCopies := rfl
@[simp] theorem State.fillWork_lostAnswer (s : State) (k : Slot) :
    (s.fillWork k).lostAnswer = s.lostAnswer := rfl
@[simp] theorem State.fillWork_cfgCopies (s : State) (k : Slot) :
    (s.fillWork k).cfgCopies = s.cfgCopies := rfl
@[simp] theorem State.fillWork_pending (s : State) (k : Slot) : (s.fillWork k).pending = s.pending := rfl

@[simp] theorem State.resetHost_opState (s : State) : (s.resetHost).opState = s.opState := rfl
@[simp] theorem State.resetHost_settleRunning (s : State) :
    (s.resetHost).settleRunning = s.settleRunning := rfl
@[simp] theorem State.resetHost_imageHeld (s : State) : (s.resetHost).imageHeld = s.imageHeld := rfl
@[simp] theorem State.resetHost_resetLow (s : State) : (s.resetHost).resetLow = s.resetLow := rfl
@[simp] theorem State.resetHost_image (s : State) : (s.resetHost).image = s.image := rfl
@[simp] theorem State.resetHost_config (s : State) : (s.resetHost).config = s.config := rfl
@[simp] theorem State.resetHost_spindle (s : State) : (s.resetHost).spindle = s.spindle := rfl
@[simp] theorem State.resetHost_exchange (s : State) : (s.resetHost).exchange = s.exchange := rfl
@[simp] theorem State.resetHost_nextTag (s : State) : (s.resetHost).nextTag = s.nextTag := rfl
@[simp] theorem State.resetHost_confirmation (s : State) : (s.resetHost).confirmation = s.confirmation := rfl
@[simp] theorem State.resetHost_link (s : State) : (s.resetHost).link = s.link := rfl
@[simp] theorem State.resetHost_queue (s : State) : (s.resetHost).queue = s.queue := rfl
@[simp] theorem State.resetHost_flight (s : State) : (s.resetHost).flight = s.flight := rfl
@[simp] theorem State.resetHost_newest (s : State) : (s.resetHost).newest = s.newest := rfl
@[simp] theorem State.resetHost_cfgNewest (s : State) : (s.resetHost).cfgNewest = s.cfgNewest := rfl
@[simp] theorem State.resetHost_confirmFrom (s : State) : (s.resetHost).confirmFrom = s.confirmFrom := rfl
@[simp] theorem State.resetHost_slotCopies (s : State) : (s.resetHost).slotCopies = s.slotCopies := rfl
@[simp] theorem State.resetHost_lostAnswer (s : State) : (s.resetHost).lostAnswer = s.lostAnswer := rfl
@[simp] theorem State.resetHost_cfgCopies (s : State) : (s.resetHost).cfgCopies = s.cfgCopies := rfl
@[simp] theorem State.resetHost_pending (s : State) : (s.resetHost).pending = s.pending := rfl

@[simp] theorem State.setConfirmFrom_opState (s : State) (k : Slot) :
    (s.setConfirmFrom k).opState = s.opState := rfl
@[simp] theorem State.setConfirmFrom_settleRunning (s : State) (k : Slot) :
    (s.setConfirmFrom k).settleRunning = s.settleRunning := rfl
@[simp] theorem State.setConfirmFrom_imageHeld (s : State) (k : Slot) :
    (s.setConfirmFrom k).imageHeld = s.imageHeld := rfl
@[simp] theorem State.setConfirmFrom_resetLow (s : State) (k : Slot) :
    (s.setConfirmFrom k).resetLow = s.resetLow := rfl
@[simp] theorem State.setConfirmFrom_image (s : State) (k : Slot) :
    (s.setConfirmFrom k).image = s.image := rfl
@[simp] theorem State.setConfirmFrom_config (s : State) (k : Slot) :
    (s.setConfirmFrom k).config = s.config := rfl
@[simp] theorem State.setConfirmFrom_spindle (s : State) (k : Slot) :
    (s.setConfirmFrom k).spindle = s.spindle := rfl
@[simp] theorem State.setConfirmFrom_exchange (s : State) (k : Slot) :
    (s.setConfirmFrom k).exchange = s.exchange := rfl
@[simp] theorem State.setConfirmFrom_nextTag (s : State) (k : Slot) :
    (s.setConfirmFrom k).nextTag = s.nextTag := rfl
@[simp] theorem State.setConfirmFrom_confirmation (s : State) (k : Slot) :
    (s.setConfirmFrom k).confirmation = s.confirmation := rfl
@[simp] theorem State.setConfirmFrom_link (s : State) (k : Slot) : (s.setConfirmFrom k).link = s.link := rfl
@[simp] theorem State.setConfirmFrom_host (s : State) (k : Slot) : (s.setConfirmFrom k).host = s.host := rfl
@[simp] theorem State.setConfirmFrom_queue (s : State) (k : Slot) :
    (s.setConfirmFrom k).queue = s.queue := rfl
@[simp] theorem State.setConfirmFrom_newest (s : State) (k : Slot) :
    (s.setConfirmFrom k).newest = s.newest := rfl
@[simp] theorem State.setConfirmFrom_cfgNewest (s : State) (k : Slot) :
    (s.setConfirmFrom k).cfgNewest = s.cfgNewest := rfl
@[simp] theorem State.setConfirmFrom_slotCopies (s : State) (k : Slot) :
    (s.setConfirmFrom k).slotCopies = s.slotCopies := rfl
@[simp] theorem State.setConfirmFrom_lostAnswer (s : State) (k : Slot) :
    (s.setConfirmFrom k).lostAnswer = s.lostAnswer := rfl
@[simp] theorem State.setConfirmFrom_cfgCopies (s : State) (k : Slot) :
    (s.setConfirmFrom k).cfgCopies = s.cfgCopies := rfl
@[simp] theorem State.setConfirmFrom_pending (s : State) (k : Slot) :
    (s.setConfirmFrom k).pending = s.pending := rfl

/-! ### The values of plain updates -/

@[simp] theorem State.setLink_link (s : State) (l : Link) : (s.setLink l).link = l := rfl
@[simp] theorem State.answer_link (s : State) (a : Answer) : (s.answer a).link = s.link.answer a := rfl
@[simp] theorem State.setCauses_host (s : State) (c : Causes) :
    (s.setCauses c).host = { s.host with causes := c } := rfl
@[simp] theorem State.complete_host (s : State) (r : Result) :
    (s.complete r).host = { s.host with result := r, causes := { s.host.causes with command := true } } := rfl
@[simp] theorem State.fillWork_host (s : State) (k : Slot) : (s.fillWork k).host =
    { s.host with workState := .fetched k (s.slot k).stamp, work := (s.slot k).workFields } := rfl
@[simp] theorem State.setSlot_image (s : State) (k : Slot) (x : SlotState) :
    (s.setSlot k x).image = s.image.set k x := rfl
@[simp] theorem Link.answer_phase (l : Link) (a : Answer) : (l.answer a).phase = .answering := rfl
@[simp] theorem Link.answer_answers (l : Link) (a : Answer) : (l.answer a).answers = [some a] := rfl
@[simp] theorem Link.answer_position (l : Link) (a : Answer) : (l.answer a).position = 0 := rfl
@[simp] theorem Link.answer_status (l : Link) (a : Answer) : (l.answer a).status = .shown := rfl
@[simp] theorem Link.answer_an (l : Link) (a : Answer) : (l.answer a).an = a.word := rfl
@[simp] theorem Link.answer_latch (l : Link) (a : Answer) : (l.answer a).latch = l.latch := rfl
@[simp] theorem Link.answer_rqMark (l : Link) (a : Answer) : (l.answer a).rqMark = l.rqMark := rfl
@[simp] theorem Link.answer_anMark (l : Link) (a : Answer) : (l.answer a).anMark = l.anMark := rfl
@[simp] theorem Link.answer_fault (l : Link) (a : Answer) : (l.answer a).fault = l.fault := rfl

/-! ### The mark of a lost answer -/

/-- R112: a step that writes `lostMark` marks the answer as the rule says. -/
theorem State.answerMarked {s t : State} (h : t.lostAnswer = s.lostMark) : s.AnswerMarked t where
  parted hp := by rw [h, State.lostMark, if_pos hp]
  whole hp := by rw [h, State.lostMark, if_neg hp]

/-! ### Reading a slot -/

theorem State.slot_eq (s t : State) (h : t.image = s.image) (k : Slot) : t.slot k = s.slot k := by
  unfold State.slot; rw [h]

theorem State.record_eq (s t : State) (h : t.image = s.image) (k : Slot) : t.record k = s.record k := by
  unfold State.record; rw [State.slot_eq s t h]

@[simp] theorem State.slot_setSlot_self (s : State) (k : Slot) (x : SlotState) :
    (s.setSlot k x).slot k = x := by
  simp [State.slot, State.setSlot]

theorem State.slot_setSlot_other (s : State) {j k : Slot} (x : SlotState) (h : j ≠ k) :
    (s.setSlot k x).slot j = s.slot j := by
  have : (k : Nat) ≠ j := fun e => h (Fin.ext e.symm)
  simp [State.slot, State.setSlot, this]

theorem State.record_setAttn (s : State) (k : Slot) (v : Bool) (j : Slot) : (s.setAttn k v).record j = s.record j := by
  by_cases h : j = k
  · subst h; simp [State.record, State.setAttn]
  · simp [State.record, State.setAttn, State.slot_setSlot_other _ _ h]

end Sys2Proof.Machine
end

