-- ==== Sys2Proof/Laws/Ops.lean ====
section
/-! SUPPORT. What each shared operation can do, said once: the frame of every operation, field by field, and the spec
lemmas that later proofs cite instead of unfolding. -/

namespace Sys2Proof.Machine

set_option Elab.async false

/-! ### Claims -/

@[simp] theorem State.claim_opState (s : State) (k : Slot) (new : Record) (c : CommitClass) :
    (s.claim k new c).opState = s.opState := by unfold State.claim; split <;> rfl
@[simp] theorem State.claim_settleRunning (s : State) (k : Slot) (new : Record) (c : CommitClass) :
    (s.claim k new c).settleRunning = s.settleRunning := by unfold State.claim; split <;> rfl
@[simp] theorem State.claim_imageHeld (s : State) (k : Slot) (new : Record) (c : CommitClass) :
    (s.claim k new c).imageHeld = s.imageHeld := by unfold State.claim; split <;> rfl
@[simp] theorem State.claim_resetLow (s : State) (k : Slot) (new : Record) (c : CommitClass) :
    (s.claim k new c).resetLow = s.resetLow := by unfold State.claim; split <;> rfl
@[simp] theorem State.claim_config (s : State) (k : Slot) (new : Record) (c : CommitClass) :
    (s.claim k new c).config = s.config := by unfold State.claim; split <;> rfl
@[simp] theorem State.claim_spindle (s : State) (k : Slot) (new : Record) (c : CommitClass) :
    (s.claim k new c).spindle = s.spindle := by unfold State.claim; split <;> rfl
@[simp] theorem State.claim_exchange (s : State) (k : Slot) (new : Record) (c : CommitClass) :
    (s.claim k new c).exchange = s.exchange := by unfold State.claim; split <;> rfl
@[simp] theorem State.claim_nextTag (s : State) (k : Slot) (new : Record) (c : CommitClass) :
    (s.claim k new c).nextTag = s.nextTag := by unfold State.claim; split <;> rfl
@[simp] theorem State.claim_confirmation (s : State) (k : Slot) (new : Record) (c : CommitClass) :
    (s.claim k new c).confirmation = s.confirmation := by unfold State.claim; split <;> rfl
@[simp] theorem State.claim_link (s : State) (k : Slot) (new : Record) (c : CommitClass) :
    (s.claim k new c).link = s.link := by unfold State.claim; split <;> rfl
@[simp] theorem State.claim_host (s : State) (k : Slot) (new : Record) (c : CommitClass) :
    (s.claim k new c).host = s.host := by unfold State.claim; split <;> rfl
@[simp] theorem State.claim_flight (s : State) (k : Slot) (new : Record) (c : CommitClass) :
    (s.claim k new c).flight = s.flight := by unfold State.claim; split <;> rfl
@[simp] theorem State.claim_newest (s : State) (k : Slot) (new : Record) (c : CommitClass) :
    (s.claim k new c).newest = s.newest := by unfold State.claim; split <;> rfl
@[simp] theorem State.claim_cfgNewest (s : State) (k : Slot) (new : Record) (c : CommitClass) :
    (s.claim k new c).cfgNewest = s.cfgNewest := by unfold State.claim; split <;> rfl
@[simp] theorem State.claim_confirmFrom (s : State) (k : Slot) (new : Record) (c : CommitClass) :
    (s.claim k new c).confirmFrom = s.confirmFrom := by unfold State.claim; split <;> rfl
@[simp] theorem State.claim_slotCopies (s : State) (k : Slot) (new : Record) (c : CommitClass) :
    (s.claim k new c).slotCopies = s.slotCopies := by unfold State.claim; split <;> rfl
@[simp] theorem State.claim_lostAnswer (s : State) (k : Slot) (new : Record) (c : CommitClass) :
    (s.claim k new c).lostAnswer = s.lostAnswer := by unfold State.claim; split <;> rfl
@[simp] theorem State.claim_cfgCopies (s : State) (k : Slot) (new : Record) (c : CommitClass) :
    (s.claim k new c).cfgCopies = s.cfgCopies := by unfold State.claim; split <;> rfl
@[simp] theorem State.claim_pending (s : State) (k : Slot) (new : Record) (c : CommitClass) :
    (s.claim k new c).pending = s.pending := by unfold State.claim; split <;> rfl

@[simp] theorem State.relocate_opState (s : State) (k : Slot) (l : Location) :
    (s.relocate k l).opState = s.opState := s.claim_opState k _ _
@[simp] theorem State.relocate_settleRunning (s : State) (k : Slot) (l : Location) :
    (s.relocate k l).settleRunning = s.settleRunning := s.claim_settleRunning k _ _
@[simp] theorem State.relocate_imageHeld (s : State) (k : Slot) (l : Location) :
    (s.relocate k l).imageHeld = s.imageHeld := s.claim_imageHeld k _ _
@[simp] theorem State.relocate_resetLow (s : State) (k : Slot) (l : Location) :
    (s.relocate k l).resetLow = s.resetLow := s.claim_resetLow k _ _
@[simp] theorem State.relocate_config (s : State) (k : Slot) (l : Location) :
    (s.relocate k l).config = s.config := s.claim_config k _ _
@[simp] theorem State.relocate_spindle (s : State) (k : Slot) (l : Location) :
    (s.relocate k l).spindle = s.spindle := s.claim_spindle k _ _
@[simp] theorem State.relocate_exchange (s : State) (k : Slot) (l : Location) :
    (s.relocate k l).exchange = s.exchange := s.claim_exchange k _ _
@[simp] theorem State.relocate_nextTag (s : State) (k : Slot) (l : Location) :
    (s.relocate k l).nextTag = s.nextTag := s.claim_nextTag k _ _
@[simp] theorem State.relocate_confirmation (s : State) (k : Slot) (l : Location) :
    (s.relocate k l).confirmation = s.confirmation := s.claim_confirmation k _ _
@[simp] theorem State.relocate_link (s : State) (k : Slot) (l : Location) :
    (s.relocate k l).link = s.link := s.claim_link k _ _
@[simp] theorem State.relocate_host (s : State) (k : Slot) (l : Location) :
    (s.relocate k l).host = s.host := s.claim_host k _ _
@[simp] theorem State.relocate_flight (s : State) (k : Slot) (l : Location) :
    (s.relocate k l).flight = s.flight := s.claim_flight k _ _
@[simp] theorem State.relocate_newest (s : State) (k : Slot) (l : Location) :
    (s.relocate k l).newest = s.newest := s.claim_newest k _ _
@[simp] theorem State.relocate_cfgNewest (s : State) (k : Slot) (l : Location) :
    (s.relocate k l).cfgNewest = s.cfgNewest := s.claim_cfgNewest k _ _
@[simp] theorem State.relocate_confirmFrom (s : State) (k : Slot) (l : Location) :
    (s.relocate k l).confirmFrom = s.confirmFrom := s.claim_confirmFrom k _ _
@[simp] theorem State.relocate_slotCopies (s : State) (k : Slot) (l : Location) :
    (s.relocate k l).slotCopies = s.slotCopies := s.claim_slotCopies k _ _
@[simp] theorem State.relocate_lostAnswer (s : State) (k : Slot) (l : Location) :
    (s.relocate k l).lostAnswer = s.lostAnswer := s.claim_lostAnswer k _ _
@[simp] theorem State.relocate_cfgCopies (s : State) (k : Slot) (l : Location) :
    (s.relocate k l).cfgCopies = s.cfgCopies := s.claim_cfgCopies k _ _
@[simp] theorem State.relocate_pending (s : State) (k : Slot) (l : Location) :
    (s.relocate k l).pending = s.pending := s.claim_pending k _ _

@[simp] theorem State.moveIncoming_opState (s : State) (m : Movement) (f : Nat → Location) :
    (s.moveIncoming m f).opState = s.opState := by unfold State.moveIncoming; split <;> simp
@[simp] theorem State.moveIncoming_settleRunning (s : State) (m : Movement) (f : Nat → Location) :
    (s.moveIncoming m f).settleRunning = s.settleRunning := by unfold State.moveIncoming; split <;> simp
@[simp] theorem State.moveIncoming_imageHeld (s : State) (m : Movement) (f : Nat → Location) :
    (s.moveIncoming m f).imageHeld = s.imageHeld := by unfold State.moveIncoming; split <;> simp
@[simp] theorem State.moveIncoming_resetLow (s : State) (m : Movement) (f : Nat → Location) :
    (s.moveIncoming m f).resetLow = s.resetLow := by unfold State.moveIncoming; split <;> simp
@[simp] theorem State.moveIncoming_config (s : State) (m : Movement) (f : Nat → Location) :
    (s.moveIncoming m f).config = s.config := by unfold State.moveIncoming; split <;> simp
@[simp] theorem State.moveIncoming_spindle (s : State) (m : Movement) (f : Nat → Location) :
    (s.moveIncoming m f).spindle = s.spindle := by unfold State.moveIncoming; split <;> simp
@[simp] theorem State.moveIncoming_exchange (s : State) (m : Movement) (f : Nat → Location) :
    (s.moveIncoming m f).exchange = s.exchange := by unfold State.moveIncoming; split <;> simp
@[simp] theorem State.moveIncoming_nextTag (s : State) (m : Movement) (f : Nat → Location) :
    (s.moveIncoming m f).nextTag = s.nextTag := by unfold State.moveIncoming; split <;> simp
@[simp] theorem State.moveIncoming_confirmation (s : State) (m : Movement) (f : Nat → Location) :
    (s.moveIncoming m f).confirmation = s.confirmation := by unfold State.moveIncoming; split <;> simp
@[simp] theorem State.moveIncoming_link (s : State) (m : Movement) (f : Nat → Location) :
    (s.moveIncoming m f).link = s.link := by unfold State.moveIncoming; split <;> simp
@[simp] theorem State.moveIncoming_host (s : State) (m : Movement) (f : Nat → Location) :
    (s.moveIncoming m f).host = s.host := by unfold State.moveIncoming; split <;> simp
@[simp] theorem State.moveIncoming_flight (s : State) (m : Movement) (f : Nat → Location) :
    (s.moveIncoming m f).flight = s.flight := by unfold State.moveIncoming; split <;> simp
@[simp] theorem State.moveIncoming_newest (s : State) (m : Movement) (f : Nat → Location) :
    (s.moveIncoming m f).newest = s.newest := by unfold State.moveIncoming; split <;> simp
@[simp] theorem State.moveIncoming_cfgNewest (s : State) (m : Movement) (f : Nat → Location) :
    (s.moveIncoming m f).cfgNewest = s.cfgNewest := by unfold State.moveIncoming; split <;> simp
@[simp] theorem State.moveIncoming_confirmFrom (s : State) (m : Movement) (f : Nat → Location) :
    (s.moveIncoming m f).confirmFrom = s.confirmFrom := by unfold State.moveIncoming; split <;> simp
@[simp] theorem State.moveIncoming_slotCopies (s : State) (m : Movement) (f : Nat → Location) :
    (s.moveIncoming m f).slotCopies = s.slotCopies := by unfold State.moveIncoming; split <;> simp
@[simp] theorem State.moveIncoming_lostAnswer (s : State) (m : Movement) (f : Nat → Location) :
    (s.moveIncoming m f).lostAnswer = s.lostAnswer := by unfold State.moveIncoming; split <;> simp
@[simp] theorem State.moveIncoming_cfgCopies (s : State) (m : Movement) (f : Nat → Location) :
    (s.moveIncoming m f).cfgCopies = s.cfgCopies := by unfold State.moveIncoming; split <;> simp
@[simp] theorem State.moveIncoming_pending (s : State) (m : Movement) (f : Nat → Location) :
    (s.moveIncoming m f).pending = s.pending := by unfold State.moveIncoming; split <;> simp

@[simp] theorem State.moveOutgoing_opState (s : State) (m : Movement) (f : Nat → Location) :
    (s.moveOutgoing m f).opState = s.opState := by unfold State.moveOutgoing; split <;> simp
@[simp] theorem State.moveOutgoing_settleRunning (s : State) (m : Movement) (f : Nat → Location) :
    (s.moveOutgoing m f).settleRunning = s.settleRunning := by unfold State.moveOutgoing; split <;> simp
@[simp] theorem State.moveOutgoing_imageHeld (s : State) (m : Movement) (f : Nat → Location) :
    (s.moveOutgoing m f).imageHeld = s.imageHeld := by unfold State.moveOutgoing; split <;> simp
@[simp] theorem State.moveOutgoing_resetLow (s : State) (m : Movement) (f : Nat → Location) :
    (s.moveOutgoing m f).resetLow = s.resetLow := by unfold State.moveOutgoing; split <;> simp
@[simp] theorem State.moveOutgoing_config (s : State) (m : Movement) (f : Nat → Location) :
    (s.moveOutgoing m f).config = s.config := by unfold State.moveOutgoing; split <;> simp
@[simp] theorem State.moveOutgoing_spindle (s : State) (m : Movement) (f : Nat → Location) :
    (s.moveOutgoing m f).spindle = s.spindle := by unfold State.moveOutgoing; split <;> simp
@[simp] theorem State.moveOutgoing_exchange (s : State) (m : Movement) (f : Nat → Location) :
    (s.moveOutgoing m f).exchange = s.exchange := by unfold State.moveOutgoing; split <;> simp
@[simp] theorem State.moveOutgoing_nextTag (s : State) (m : Movement) (f : Nat → Location) :
    (s.moveOutgoing m f).nextTag = s.nextTag := by unfold State.moveOutgoing; split <;> simp
@[simp] theorem State.moveOutgoing_confirmation (s : State) (m : Movement) (f : Nat → Location) :
    (s.moveOutgoing m f).confirmation = s.confirmation := by unfold State.moveOutgoing; split <;> simp
@[simp] theorem State.moveOutgoing_link (s : State) (m : Movement) (f : Nat → Location) :
    (s.moveOutgoing m f).link = s.link := by unfold State.moveOutgoing; split <;> simp
@[simp] theorem State.moveOutgoing_host (s : State) (m : Movement) (f : Nat → Location) :
    (s.moveOutgoing m f).host = s.host := by unfold State.moveOutgoing; split <;> simp
@[simp] theorem State.moveOutgoing_flight (s : State) (m : Movement) (f : Nat → Location) :
    (s.moveOutgoing m f).flight = s.flight := by unfold State.moveOutgoing; split <;> simp
@[simp] theorem State.moveOutgoing_newest (s : State) (m : Movement) (f : Nat → Location) :
    (s.moveOutgoing m f).newest = s.newest := by unfold State.moveOutgoing; split <;> simp
@[simp] theorem State.moveOutgoing_cfgNewest (s : State) (m : Movement) (f : Nat → Location) :
    (s.moveOutgoing m f).cfgNewest = s.cfgNewest := by unfold State.moveOutgoing; split <;> simp
@[simp] theorem State.moveOutgoing_confirmFrom (s : State) (m : Movement) (f : Nat → Location) :
    (s.moveOutgoing m f).confirmFrom = s.confirmFrom := by unfold State.moveOutgoing; split <;> simp
@[simp] theorem State.moveOutgoing_slotCopies (s : State) (m : Movement) (f : Nat → Location) :
    (s.moveOutgoing m f).slotCopies = s.slotCopies := by unfold State.moveOutgoing; split <;> simp
@[simp] theorem State.moveOutgoing_lostAnswer (s : State) (m : Movement) (f : Nat → Location) :
    (s.moveOutgoing m f).lostAnswer = s.lostAnswer := by unfold State.moveOutgoing; split <;> simp
@[simp] theorem State.moveOutgoing_cfgCopies (s : State) (m : Movement) (f : Nat → Location) :
    (s.moveOutgoing m f).cfgCopies = s.cfgCopies := by unfold State.moveOutgoing; split <;> simp
@[simp] theorem State.moveOutgoing_pending (s : State) (m : Movement) (f : Nat → Location) :
    (s.moveOutgoing m f).pending = s.pending := by unfold State.moveOutgoing; split <;> simp

@[simp] theorem State.landOutgoing_opState (s : State) (m : Movement) :
    (s.landOutgoing m).opState = s.opState := by unfold State.landOutgoing; split <;> simp
@[simp] theorem State.landOutgoing_settleRunning (s : State) (m : Movement) :
    (s.landOutgoing m).settleRunning = s.settleRunning := by unfold State.landOutgoing; split <;> simp
@[simp] theorem State.landOutgoing_imageHeld (s : State) (m : Movement) :
    (s.landOutgoing m).imageHeld = s.imageHeld := by unfold State.landOutgoing; split <;> simp
@[simp] theorem State.landOutgoing_resetLow (s : State) (m : Movement) :
    (s.landOutgoing m).resetLow = s.resetLow := by unfold State.landOutgoing; split <;> simp
@[simp] theorem State.landOutgoing_config (s : State) (m : Movement) :
    (s.landOutgoing m).config = s.config := by unfold State.landOutgoing; split <;> simp
@[simp] theorem State.landOutgoing_spindle (s : State) (m : Movement) :
    (s.landOutgoing m).spindle = s.spindle := by unfold State.landOutgoing; split <;> simp
@[simp] theorem State.landOutgoing_exchange (s : State) (m : Movement) :
    (s.landOutgoing m).exchange = s.exchange := by unfold State.landOutgoing; split <;> simp
@[simp] theorem State.landOutgoing_nextTag (s : State) (m : Movement) :
    (s.landOutgoing m).nextTag = s.nextTag := by unfold State.landOutgoing; split <;> simp
@[simp] theorem State.landOutgoing_confirmation (s : State) (m : Movement) :
    (s.landOutgoing m).confirmation = s.confirmation := by unfold State.landOutgoing; split <;> simp
@[simp] theorem State.landOutgoing_link (s : State) (m : Movement) :
    (s.landOutgoing m).link = s.link := by unfold State.landOutgoing; split <;> simp
@[simp] theorem State.landOutgoing_host (s : State) (m : Movement) :
    (s.landOutgoing m).host = s.host := by unfold State.landOutgoing; split <;> simp
@[simp] theorem State.landOutgoing_flight (s : State) (m : Movement) :
    (s.landOutgoing m).flight = s.flight := by unfold State.landOutgoing; split <;> simp
@[simp] theorem State.landOutgoing_newest (s : State) (m : Movement) :
    (s.landOutgoing m).newest = s.newest := by unfold State.landOutgoing; split <;> simp
@[simp] theorem State.landOutgoing_cfgNewest (s : State) (m : Movement) :
    (s.landOutgoing m).cfgNewest = s.cfgNewest := by unfold State.landOutgoing; split <;> simp
@[simp] theorem State.landOutgoing_confirmFrom (s : State) (m : Movement) :
    (s.landOutgoing m).confirmFrom = s.confirmFrom := by unfold State.landOutgoing; split <;> simp
@[simp] theorem State.landOutgoing_slotCopies (s : State) (m : Movement) :
    (s.landOutgoing m).slotCopies = s.slotCopies := by unfold State.landOutgoing; split <;> simp
@[simp] theorem State.landOutgoing_lostAnswer (s : State) (m : Movement) :
    (s.landOutgoing m).lostAnswer = s.lostAnswer := by unfold State.landOutgoing; split <;> simp
@[simp] theorem State.landOutgoing_cfgCopies (s : State) (m : Movement) :
    (s.landOutgoing m).cfgCopies = s.cfgCopies := by unfold State.landOutgoing; split <;> simp
@[simp] theorem State.landOutgoing_pending (s : State) (m : Movement) :
    (s.landOutgoing m).pending = s.pending := by unfold State.landOutgoing; split <;> simp

/-! ### The exchange -/

theorem foldl_setConfirmFrom {β : Type} (g : State → β) (h : ∀ s k, g (s.setConfirmFrom k) = g s) (l : List Slot)
    (s : State) : g (l.foldl State.setConfirmFrom s) = g s := by
  induction l generalizing s with
  | nil => rfl
  | cons k l ih => rw [List.foldl_cons, ih, h]

@[simp] theorem State.awaitCommits_opState (s : State) (m : Movement) (w : Withheld) :
    (s.awaitCommits m w).opState = s.opState := foldl_setConfirmFrom State.opState (fun _ _ => rfl) _ s
@[simp] theorem State.awaitCommits_settleRunning (s : State) (m : Movement) (w : Withheld) :
    (s.awaitCommits m w).settleRunning = s.settleRunning :=
  foldl_setConfirmFrom State.settleRunning (fun _ _ => rfl) _ s
@[simp] theorem State.awaitCommits_imageHeld (s : State) (m : Movement) (w : Withheld) :
    (s.awaitCommits m w).imageHeld = s.imageHeld := foldl_setConfirmFrom State.imageHeld (fun _ _ => rfl) _ s
@[simp] theorem State.awaitCommits_resetLow (s : State) (m : Movement) (w : Withheld) :
    (s.awaitCommits m w).resetLow = s.resetLow := foldl_setConfirmFrom State.resetLow (fun _ _ => rfl) _ s
@[simp] theorem State.awaitCommits_image (s : State) (m : Movement) (w : Withheld) :
    (s.awaitCommits m w).image = s.image := foldl_setConfirmFrom State.image (fun _ _ => rfl) _ s
@[simp] theorem State.awaitCommits_config (s : State) (m : Movement) (w : Withheld) :
    (s.awaitCommits m w).config = s.config := foldl_setConfirmFrom State.config (fun _ _ => rfl) _ s
@[simp] theorem State.awaitCommits_spindle (s : State) (m : Movement) (w : Withheld) :
    (s.awaitCommits m w).spindle = s.spindle := foldl_setConfirmFrom State.spindle (fun _ _ => rfl) _ s
@[simp] theorem State.awaitCommits_exchange (s : State) (m : Movement) (w : Withheld) :
    (s.awaitCommits m w).exchange = s.exchange := foldl_setConfirmFrom State.exchange (fun _ _ => rfl) _ s
@[simp] theorem State.awaitCommits_nextTag (s : State) (m : Movement) (w : Withheld) :
    (s.awaitCommits m w).nextTag = s.nextTag := foldl_setConfirmFrom State.nextTag (fun _ _ => rfl) _ s
@[simp] theorem State.awaitCommits_link (s : State) (m : Movement) (w : Withheld) :
    (s.awaitCommits m w).link = s.link := foldl_setConfirmFrom State.link (fun _ _ => rfl) _ s
@[simp] theorem State.awaitCommits_host (s : State) (m : Movement) (w : Withheld) :
    (s.awaitCommits m w).host = s.host := foldl_setConfirmFrom State.host (fun _ _ => rfl) _ s
@[simp] theorem State.awaitCommits_queue (s : State) (m : Movement) (w : Withheld) :
    (s.awaitCommits m w).queue = s.queue := foldl_setConfirmFrom State.queue (fun _ _ => rfl) _ s
@[simp] theorem State.awaitCommits_newest (s : State) (m : Movement) (w : Withheld) :
    (s.awaitCommits m w).newest = s.newest := foldl_setConfirmFrom State.newest (fun _ _ => rfl) _ s
@[simp] theorem State.awaitCommits_cfgNewest (s : State) (m : Movement) (w : Withheld) :
    (s.awaitCommits m w).cfgNewest = s.cfgNewest := foldl_setConfirmFrom State.cfgNewest (fun _ _ => rfl) _ s
@[simp] theorem State.awaitCommits_slotCopies (s : State) (m : Movement) (w : Withheld) :
    (s.awaitCommits m w).slotCopies = s.slotCopies :=
  foldl_setConfirmFrom State.slotCopies (fun _ _ => rfl) _ s
@[simp] theorem State.awaitCommits_lostAnswer (s : State) (m : Movement) (w : Withheld) :
    (s.awaitCommits m w).lostAnswer = s.lostAnswer := foldl_setConfirmFrom State.lostAnswer (fun _ _ => rfl) _ s
@[simp] theorem State.awaitCommits_cfgCopies (s : State) (m : Movement) (w : Withheld) :
    (s.awaitCommits m w).cfgCopies = s.cfgCopies := foldl_setConfirmFrom State.cfgCopies (fun _ _ => rfl) _ s
@[simp] theorem State.awaitCommits_pending (s : State) (m : Movement) (w : Withheld) :
    (s.awaitCommits m w).pending = s.pending := foldl_setConfirmFrom State.pending (fun _ _ => rfl) _ s

@[simp] theorem State.notify_opState (s : State) (k : Slot) (c a : Bool) :
    (s.notify k c a).opState = s.opState := by unfold State.notify; (repeat' split) <;> rfl
@[simp] theorem State.notify_settleRunning (s : State) (k : Slot) (c a : Bool) :
    (s.notify k c a).settleRunning = s.settleRunning := by unfold State.notify; (repeat' split) <;> rfl
@[simp] theorem State.notify_imageHeld (s : State) (k : Slot) (c a : Bool) :
    (s.notify k c a).imageHeld = s.imageHeld := by unfold State.notify; (repeat' split) <;> rfl
@[simp] theorem State.notify_resetLow (s : State) (k : Slot) (c a : Bool) :
    (s.notify k c a).resetLow = s.resetLow := by unfold State.notify; (repeat' split) <;> rfl
@[simp] theorem State.notify_image (s : State) (k : Slot) (c a : Bool) :
    (s.notify k c a).image = s.image := by unfold State.notify; (repeat' split) <;> rfl
@[simp] theorem State.notify_config (s : State) (k : Slot) (c a : Bool) :
    (s.notify k c a).config = s.config := by unfold State.notify; (repeat' split) <;> rfl
@[simp] theorem State.notify_spindle (s : State) (k : Slot) (c a : Bool) :
    (s.notify k c a).spindle = s.spindle := by unfold State.notify; (repeat' split) <;> rfl
@[simp] theorem State.notify_exchange (s : State) (k : Slot) (c a : Bool) :
    (s.notify k c a).exchange = s.exchange := by unfold State.notify; (repeat' split) <;> rfl
@[simp] theorem State.notify_nextTag (s : State) (k : Slot) (c a : Bool) :
    (s.notify k c a).nextTag = s.nextTag := by unfold State.notify; (repeat' split) <;> rfl
@[simp] theorem State.notify_link (s : State) (k : Slot) (c a : Bool) :
    (s.notify k c a).link = s.link := by unfold State.notify; (repeat' split) <;> rfl
@[simp] theorem State.notify_host (s : State) (k : Slot) (c a : Bool) :
    (s.notify k c a).host = s.host := by unfold State.notify; (repeat' split) <;> rfl
@[simp] theorem State.notify_queue (s : State) (k : Slot) (c a : Bool) :
    (s.notify k c a).queue = s.queue := by unfold State.notify; (repeat' split) <;> rfl
@[simp] theorem State.notify_flight (s : State) (k : Slot) (c a : Bool) :
    (s.notify k c a).flight = s.flight := by unfold State.notify; (repeat' split) <;> rfl
@[simp] theorem State.notify_newest (s : State) (k : Slot) (c a : Bool) :
    (s.notify k c a).newest = s.newest := by unfold State.notify; (repeat' split) <;> rfl
@[simp] theorem State.notify_cfgNewest (s : State) (k : Slot) (c a : Bool) :
    (s.notify k c a).cfgNewest = s.cfgNewest := by unfold State.notify; (repeat' split) <;> rfl
@[simp] theorem State.notify_confirmFrom (s : State) (k : Slot) (c a : Bool) :
    (s.notify k c a).confirmFrom = s.confirmFrom := by unfold State.notify; (repeat' split) <;> rfl
@[simp] theorem State.notify_slotCopies (s : State) (k : Slot) (c a : Bool) :
    (s.notify k c a).slotCopies = s.slotCopies := by unfold State.notify; (repeat' split) <;> rfl
@[simp] theorem State.notify_lostAnswer (s : State) (k : Slot) (c a : Bool) :
    (s.notify k c a).lostAnswer = s.lostAnswer := by unfold State.notify; (repeat' split) <;> rfl
@[simp] theorem State.notify_cfgCopies (s : State) (k : Slot) (c a : Bool) :
    (s.notify k c a).cfgCopies = s.cfgCopies := by unfold State.notify; (repeat' split) <;> rfl
@[simp] theorem State.notify_pending (s : State) (k : Slot) (c a : Bool) :
    (s.notify k c a).pending = s.pending := by unfold State.notify; (repeat' split) <;> rfl

@[simp] theorem State.completeMove_opState (s : State) (m : Movement) :
    (s.completeMove m).opState = s.opState := by simp [State.completeMove]
@[simp] theorem State.completeMove_settleRunning (s : State) (m : Movement) :
    (s.completeMove m).settleRunning = s.settleRunning := by simp [State.completeMove]
@[simp] theorem State.completeMove_imageHeld (s : State) (m : Movement) :
    (s.completeMove m).imageHeld = s.imageHeld := by simp [State.completeMove]
@[simp] theorem State.completeMove_resetLow (s : State) (m : Movement) :
    (s.completeMove m).resetLow = s.resetLow := by simp [State.completeMove]
@[simp] theorem State.completeMove_config (s : State) (m : Movement) :
    (s.completeMove m).config = s.config := by simp [State.completeMove]
@[simp] theorem State.completeMove_nextTag (s : State) (m : Movement) :
    (s.completeMove m).nextTag = s.nextTag := by simp [State.completeMove]
@[simp] theorem State.completeMove_confirmation (s : State) (m : Movement) :
    (s.completeMove m).confirmation = s.confirmation := by simp [State.completeMove]
@[simp] theorem State.completeMove_link (s : State) (m : Movement) :
    (s.completeMove m).link = s.link := by simp [State.completeMove]
@[simp] theorem State.completeMove_host (s : State) (m : Movement) :
    (s.completeMove m).host = s.host := by simp [State.completeMove]
@[simp] theorem State.completeMove_flight (s : State) (m : Movement) :
    (s.completeMove m).flight = s.flight := by simp [State.completeMove]
@[simp] theorem State.completeMove_newest (s : State) (m : Movement) :
    (s.completeMove m).newest = s.newest := by simp [State.completeMove]
@[simp] theorem State.completeMove_cfgNewest (s : State) (m : Movement) :
    (s.completeMove m).cfgNewest = s.cfgNewest := by simp [State.completeMove]
@[simp] theorem State.completeMove_confirmFrom (s : State) (m : Movement) :
    (s.completeMove m).confirmFrom = s.confirmFrom := by simp [State.completeMove]
@[simp] theorem State.completeMove_slotCopies (s : State) (m : Movement) :
    (s.completeMove m).slotCopies = s.slotCopies := by simp [State.completeMove]
@[simp] theorem State.completeMove_lostAnswer (s : State) (m : Movement) :
    (s.completeMove m).lostAnswer = s.lostAnswer := by simp [State.completeMove]
@[simp] theorem State.completeMove_cfgCopies (s : State) (m : Movement) :
    (s.completeMove m).cfgCopies = s.cfgCopies := by simp [State.completeMove]
@[simp] theorem State.completeMove_pending (s : State) (m : Movement) :
    (s.completeMove m).pending = s.pending := by simp [State.completeMove]

@[simp] theorem State.revert_opState (s : State) (m : Movement) :
    (s.revert m).opState = s.opState := by simp [State.revert]
@[simp] theorem State.revert_settleRunning (s : State) (m : Movement) :
    (s.revert m).settleRunning = s.settleRunning := by simp [State.revert]
@[simp] theorem State.revert_imageHeld (s : State) (m : Movement) :
    (s.revert m).imageHeld = s.imageHeld := by simp [State.revert]
@[simp] theorem State.revert_resetLow (s : State) (m : Movement) :
    (s.revert m).resetLow = s.resetLow := by simp [State.revert]
@[simp] theorem State.revert_config (s : State) (m : Movement) :
    (s.revert m).config = s.config := by simp [State.revert]
@[simp] theorem State.revert_nextTag (s : State) (m : Movement) :
    (s.revert m).nextTag = s.nextTag := by simp [State.revert]
@[simp] theorem State.revert_confirmation (s : State) (m : Movement) :
    (s.revert m).confirmation = s.confirmation := by simp [State.revert]
@[simp] theorem State.revert_link (s : State) (m : Movement) :
    (s.revert m).link = s.link := by simp [State.revert]
@[simp] theorem State.revert_host (s : State) (m : Movement) :
    (s.revert m).host = s.host := by simp [State.revert]
@[simp] theorem State.revert_flight (s : State) (m : Movement) :
    (s.revert m).flight = s.flight := by simp [State.revert]
@[simp] theorem State.revert_newest (s : State) (m : Movement) :
    (s.revert m).newest = s.newest := by simp [State.revert]
@[simp] theorem State.revert_cfgNewest (s : State) (m : Movement) :
    (s.revert m).cfgNewest = s.cfgNewest := by simp [State.revert]
@[simp] theorem State.revert_confirmFrom (s : State) (m : Movement) :
    (s.revert m).confirmFrom = s.confirmFrom := by simp [State.revert]
@[simp] theorem State.revert_slotCopies (s : State) (m : Movement) :
    (s.revert m).slotCopies = s.slotCopies := by simp [State.revert]
@[simp] theorem State.revert_lostAnswer (s : State) (m : Movement) :
    (s.revert m).lostAnswer = s.lostAnswer := by simp [State.revert]
@[simp] theorem State.revert_cfgCopies (s : State) (m : Movement) :
    (s.revert m).cfgCopies = s.cfgCopies := by simp [State.revert]
@[simp] theorem State.revert_pending (s : State) (m : Movement) :
    (s.revert m).pending = s.pending := by simp [State.revert]

@[simp] theorem State.suspectExchange_opState (s : State) (x : OpenExchange) (c : Suspicion) :
    (s.suspectExchange x c).opState = s.opState := by simp [State.suspectExchange]
@[simp] theorem State.suspectExchange_settleRunning (s : State) (x : OpenExchange) (c : Suspicion) :
    (s.suspectExchange x c).settleRunning = s.settleRunning := by simp [State.suspectExchange]
@[simp] theorem State.suspectExchange_imageHeld (s : State) (x : OpenExchange) (c : Suspicion) :
    (s.suspectExchange x c).imageHeld = s.imageHeld := by simp [State.suspectExchange]
@[simp] theorem State.suspectExchange_resetLow (s : State) (x : OpenExchange) (c : Suspicion) :
    (s.suspectExchange x c).resetLow = s.resetLow := by simp [State.suspectExchange]
@[simp] theorem State.suspectExchange_config (s : State) (x : OpenExchange) (c : Suspicion) :
    (s.suspectExchange x c).config = s.config := by simp [State.suspectExchange]
@[simp] theorem State.suspectExchange_nextTag (s : State) (x : OpenExchange) (c : Suspicion) :
    (s.suspectExchange x c).nextTag = s.nextTag := by simp [State.suspectExchange]
@[simp] theorem State.suspectExchange_confirmation (s : State) (x : OpenExchange) (c : Suspicion) :
    (s.suspectExchange x c).confirmation = s.confirmation := by simp [State.suspectExchange]
@[simp] theorem State.suspectExchange_link (s : State) (x : OpenExchange) (c : Suspicion) :
    (s.suspectExchange x c).link = s.link := by simp [State.suspectExchange]
@[simp] theorem State.suspectExchange_flight (s : State) (x : OpenExchange) (c : Suspicion) :
    (s.suspectExchange x c).flight = s.flight := by simp [State.suspectExchange]
@[simp] theorem State.suspectExchange_newest (s : State) (x : OpenExchange) (c : Suspicion) :
    (s.suspectExchange x c).newest = s.newest := by simp [State.suspectExchange]
@[simp] theorem State.suspectExchange_cfgNewest (s : State) (x : OpenExchange) (c : Suspicion) :
    (s.suspectExchange x c).cfgNewest = s.cfgNewest := by simp [State.suspectExchange]
@[simp] theorem State.suspectExchange_confirmFrom (s : State) (x : OpenExchange) (c : Suspicion) :
    (s.suspectExchange x c).confirmFrom = s.confirmFrom := by simp [State.suspectExchange]
@[simp] theorem State.suspectExchange_slotCopies (s : State) (x : OpenExchange) (c : Suspicion) :
    (s.suspectExchange x c).slotCopies = s.slotCopies := by simp [State.suspectExchange]
@[simp] theorem State.suspectExchange_lostAnswer (s : State) (x : OpenExchange) (c : Suspicion) :
    (s.suspectExchange x c).lostAnswer = s.lostAnswer := by simp [State.suspectExchange]
@[simp] theorem State.suspectExchange_cfgCopies (s : State) (x : OpenExchange) (c : Suspicion) :
    (s.suspectExchange x c).cfgCopies = s.cfgCopies := by simp [State.suspectExchange]
@[simp] theorem State.suspectExchange_pending (s : State) (x : OpenExchange) (c : Suspicion) :
    (s.suspectExchange x c).pending = s.pending := by simp [State.suspectExchange]

@[simp] theorem State.openExchange_opState (s : State) (m : Movement) :
    (s.openExchange m).opState = s.opState := by simp [State.openExchange]
@[simp] theorem State.openExchange_settleRunning (s : State) (m : Movement) :
    (s.openExchange m).settleRunning = s.settleRunning := by simp [State.openExchange]
@[simp] theorem State.openExchange_imageHeld (s : State) (m : Movement) :
    (s.openExchange m).imageHeld = s.imageHeld := by simp [State.openExchange]
@[simp] theorem State.openExchange_resetLow (s : State) (m : Movement) :
    (s.openExchange m).resetLow = s.resetLow := by simp [State.openExchange]
@[simp] theorem State.openExchange_config (s : State) (m : Movement) :
    (s.openExchange m).config = s.config := by simp [State.openExchange]
@[simp] theorem State.openExchange_host (s : State) (m : Movement) :
    (s.openExchange m).host = s.host := by simp [State.openExchange]
@[simp] theorem State.openExchange_newest (s : State) (m : Movement) :
    (s.openExchange m).newest = s.newest := by simp [State.openExchange]
@[simp] theorem State.openExchange_cfgNewest (s : State) (m : Movement) :
    (s.openExchange m).cfgNewest = s.cfgNewest := by simp [State.openExchange]
@[simp] theorem State.openExchange_slotCopies (s : State) (m : Movement) :
    (s.openExchange m).slotCopies = s.slotCopies := by simp [State.openExchange]
@[simp] theorem State.openExchange_lostAnswer (s : State) (m : Movement) :
    (s.openExchange m).lostAnswer = s.lostAnswer := by simp [State.openExchange]
@[simp] theorem State.openExchange_cfgCopies (s : State) (m : Movement) :
    (s.openExchange m).cfgCopies = s.cfgCopies := by simp [State.openExchange]
@[simp] theorem State.openExchange_pending (s : State) (m : Movement) :
    (s.openExchange m).pending = s.pending := by simp [State.openExchange]

@[simp] theorem State.replaceAnswer_opState (s : State) (w : Withheld) (k : Slot) :
    (s.replaceAnswer w k).opState = s.opState := by
  unfold State.replaceAnswer; split; split <;> simp; all_goals rfl
@[simp] theorem State.replaceAnswer_settleRunning (s : State) (w : Withheld) (k : Slot) :
    (s.replaceAnswer w k).settleRunning = s.settleRunning := by
  unfold State.replaceAnswer; split; split <;> simp; all_goals rfl
@[simp] theorem State.replaceAnswer_imageHeld (s : State) (w : Withheld) (k : Slot) :
    (s.replaceAnswer w k).imageHeld = s.imageHeld := by
  unfold State.replaceAnswer; split; split <;> simp; all_goals rfl
@[simp] theorem State.replaceAnswer_resetLow (s : State) (w : Withheld) (k : Slot) :
    (s.replaceAnswer w k).resetLow = s.resetLow := by
  unfold State.replaceAnswer; split; split <;> simp; all_goals rfl
@[simp] theorem State.replaceAnswer_config (s : State) (w : Withheld) (k : Slot) :
    (s.replaceAnswer w k).config = s.config := by
  unfold State.replaceAnswer; split; split <;> simp; all_goals rfl
@[simp] theorem State.replaceAnswer_nextTag (s : State) (w : Withheld) (k : Slot) :
    (s.replaceAnswer w k).nextTag = s.nextTag := by
  unfold State.replaceAnswer; split; split <;> simp; all_goals rfl
@[simp] theorem State.replaceAnswer_host (s : State) (w : Withheld) (k : Slot) :
    (s.replaceAnswer w k).host = s.host := by unfold State.replaceAnswer; split; split <;> simp; all_goals rfl
@[simp] theorem State.replaceAnswer_flight (s : State) (w : Withheld) (k : Slot) :
    (s.replaceAnswer w k).flight = s.flight := by
  unfold State.replaceAnswer; split; split <;> simp; all_goals rfl
@[simp] theorem State.replaceAnswer_newest (s : State) (w : Withheld) (k : Slot) :
    (s.replaceAnswer w k).newest = s.newest := by
  unfold State.replaceAnswer; split; split <;> simp; all_goals rfl
@[simp] theorem State.replaceAnswer_cfgNewest (s : State) (w : Withheld) (k : Slot) :
    (s.replaceAnswer w k).cfgNewest = s.cfgNewest := by
  unfold State.replaceAnswer; split; split <;> simp; all_goals rfl
@[simp] theorem State.replaceAnswer_confirmFrom (s : State) (w : Withheld) (k : Slot) :
    (s.replaceAnswer w k).confirmFrom = s.confirmFrom := by
  unfold State.replaceAnswer; split; split <;> simp; all_goals rfl
@[simp] theorem State.replaceAnswer_slotCopies (s : State) (w : Withheld) (k : Slot) :
    (s.replaceAnswer w k).slotCopies = s.slotCopies := by
  unfold State.replaceAnswer; split; split <;> simp; all_goals rfl
@[simp] theorem State.replaceAnswer_lostAnswer (s : State) (w : Withheld) (k : Slot) :
    (s.replaceAnswer w k).lostAnswer = s.lostAnswer := by
  unfold State.replaceAnswer; split; split <;> simp; all_goals rfl
@[simp] theorem State.replaceAnswer_cfgCopies (s : State) (w : Withheld) (k : Slot) :
    (s.replaceAnswer w k).cfgCopies = s.cfgCopies := by
  unfold State.replaceAnswer; split; split <;> simp; all_goals rfl
@[simp] theorem State.replaceAnswer_pending (s : State) (w : Withheld) (k : Slot) :
    (s.replaceAnswer w k).pending = s.pending := by
  unfold State.replaceAnswer; split; split <;> simp; all_goals rfl

@[simp] theorem State.releaseRecord_opState (s : State) :
    (s.releaseRecord).opState = s.opState := by
  unfold State.releaseRecord; split <;> [skip; rfl]
  split <;> [rfl; (split <;> [exact s.replaceAnswer_opState _ _; (split <;> rfl)])]
@[simp] theorem State.releaseRecord_settleRunning (s : State) :
    (s.releaseRecord).settleRunning = s.settleRunning := by
  unfold State.releaseRecord; split <;> [skip; rfl]
  split <;> [rfl; (split <;> [exact s.replaceAnswer_settleRunning _ _; (split <;> rfl)])]
@[simp] theorem State.releaseRecord_imageHeld (s : State) :
    (s.releaseRecord).imageHeld = s.imageHeld := by
  unfold State.releaseRecord; split <;> [skip; rfl]
  split <;> [rfl; (split <;> [exact s.replaceAnswer_imageHeld _ _; (split <;> rfl)])]
@[simp] theorem State.releaseRecord_resetLow (s : State) :
    (s.releaseRecord).resetLow = s.resetLow := by
  unfold State.releaseRecord; split <;> [skip; rfl]
  split <;> [rfl; (split <;> [exact s.replaceAnswer_resetLow _ _; (split <;> rfl)])]
@[simp] theorem State.releaseRecord_config (s : State) :
    (s.releaseRecord).config = s.config := by
  unfold State.releaseRecord; split <;> [skip; rfl]
  split <;> [rfl; (split <;> [exact s.replaceAnswer_config _ _; (split <;> rfl)])]
@[simp] theorem State.releaseRecord_nextTag (s : State) :
    (s.releaseRecord).nextTag = s.nextTag := by
  unfold State.releaseRecord; split <;> [skip; rfl]
  split <;> [rfl; (split <;> [exact s.replaceAnswer_nextTag _ _; (split <;> rfl)])]
@[simp] theorem State.releaseRecord_host (s : State) :
    (s.releaseRecord).host = s.host := by
  unfold State.releaseRecord; split <;> [skip; rfl]
  split <;> [rfl; (split <;> [exact s.replaceAnswer_host _ _; (split <;> rfl)])]
@[simp] theorem State.releaseRecord_flight (s : State) :
    (s.releaseRecord).flight = s.flight := by
  unfold State.releaseRecord; split <;> [skip; rfl]
  split <;> [rfl; (split <;> [exact s.replaceAnswer_flight _ _; (split <;> rfl)])]
@[simp] theorem State.releaseRecord_newest (s : State) :
    (s.releaseRecord).newest = s.newest := by
  unfold State.releaseRecord; split <;> [skip; rfl]
  split <;> [rfl; (split <;> [exact s.replaceAnswer_newest _ _; (split <;> rfl)])]
@[simp] theorem State.releaseRecord_cfgNewest (s : State) :
    (s.releaseRecord).cfgNewest = s.cfgNewest := by
  unfold State.releaseRecord; split <;> [skip; rfl]
  split <;> [rfl; (split <;> [exact s.replaceAnswer_cfgNewest _ _; (split <;> rfl)])]
@[simp] theorem State.releaseRecord_confirmFrom (s : State) :
    (s.releaseRecord).confirmFrom = s.confirmFrom := by
  unfold State.releaseRecord; split <;> [skip; rfl]
  split <;> [rfl; (split <;> [exact s.replaceAnswer_confirmFrom _ _; (split <;> rfl)])]
@[simp] theorem State.releaseRecord_slotCopies (s : State) :
    (s.releaseRecord).slotCopies = s.slotCopies := by
  unfold State.releaseRecord; split <;> [skip; rfl]
  split <;> [rfl; (split <;> [exact s.replaceAnswer_slotCopies _ _; (split <;> rfl)])]
@[simp] theorem State.releaseRecord_lostAnswer (s : State) :
    (s.releaseRecord).lostAnswer = s.lostAnswer := by
  unfold State.releaseRecord; split <;> [skip; rfl]
  split <;> [rfl; (split <;> [exact s.replaceAnswer_lostAnswer _ _; (split <;> rfl)])]
@[simp] theorem State.releaseRecord_cfgCopies (s : State) :
    (s.releaseRecord).cfgCopies = s.cfgCopies := by
  unfold State.releaseRecord; split <;> [skip; rfl]
  split <;> [rfl; (split <;> [exact s.replaceAnswer_cfgCopies _ _; (split <;> rfl)])]
@[simp] theorem State.releaseRecord_pending (s : State) :
    (s.releaseRecord).pending = s.pending := by
  unfold State.releaseRecord; split <;> [skip; rfl]
  split <;> [rfl; (split <;> [exact s.replaceAnswer_pending _ _; (split <;> rfl)])]

/-! ### The Commit Engine -/

@[simp] theorem State.writeTarget_opState (s : State) (f : Flight) (v : Bool) :
    (s.writeTarget f v).opState = s.opState := by unfold State.writeTarget; split <;> rfl
@[simp] theorem State.writeTarget_settleRunning (s : State) (f : Flight) (v : Bool) :
    (s.writeTarget f v).settleRunning = s.settleRunning := by unfold State.writeTarget; split <;> rfl
@[simp] theorem State.writeTarget_imageHeld (s : State) (f : Flight) (v : Bool) :
    (s.writeTarget f v).imageHeld = s.imageHeld := by unfold State.writeTarget; split <;> rfl
@[simp] theorem State.writeTarget_resetLow (s : State) (f : Flight) (v : Bool) :
    (s.writeTarget f v).resetLow = s.resetLow := by unfold State.writeTarget; split <;> rfl
@[simp] theorem State.writeTarget_image (s : State) (f : Flight) (v : Bool) :
    (s.writeTarget f v).image = s.image := by unfold State.writeTarget; split <;> rfl
@[simp] theorem State.writeTarget_config (s : State) (f : Flight) (v : Bool) :
    (s.writeTarget f v).config = s.config := by unfold State.writeTarget; split <;> rfl
@[simp] theorem State.writeTarget_spindle (s : State) (f : Flight) (v : Bool) :
    (s.writeTarget f v).spindle = s.spindle := by unfold State.writeTarget; split <;> rfl
@[simp] theorem State.writeTarget_exchange (s : State) (f : Flight) (v : Bool) :
    (s.writeTarget f v).exchange = s.exchange := by unfold State.writeTarget; split <;> rfl
@[simp] theorem State.writeTarget_nextTag (s : State) (f : Flight) (v : Bool) :
    (s.writeTarget f v).nextTag = s.nextTag := by unfold State.writeTarget; split <;> rfl
@[simp] theorem State.writeTarget_confirmation (s : State) (f : Flight) (v : Bool) :
    (s.writeTarget f v).confirmation = s.confirmation := by unfold State.writeTarget; split <;> rfl
@[simp] theorem State.writeTarget_link (s : State) (f : Flight) (v : Bool) :
    (s.writeTarget f v).link = s.link := by unfold State.writeTarget; split <;> rfl
@[simp] theorem State.writeTarget_lostAnswer (s : State) (f : Flight) (v : Bool) :
    (s.writeTarget f v).lostAnswer = s.lostAnswer := by unfold State.writeTarget; split <;> rfl
@[simp] theorem State.writeTarget_host (s : State) (f : Flight) (v : Bool) :
    (s.writeTarget f v).host = s.host := by unfold State.writeTarget; split <;> rfl
@[simp] theorem State.writeTarget_queue (s : State) (f : Flight) (v : Bool) :
    (s.writeTarget f v).queue = s.queue := by unfold State.writeTarget; split <;> rfl
@[simp] theorem State.writeTarget_flight (s : State) (f : Flight) (v : Bool) :
    (s.writeTarget f v).flight = s.flight := by unfold State.writeTarget; split <;> rfl
@[simp] theorem State.writeTarget_newest (s : State) (f : Flight) (v : Bool) :
    (s.writeTarget f v).newest = s.newest := by unfold State.writeTarget; split <;> rfl
@[simp] theorem State.writeTarget_cfgNewest (s : State) (f : Flight) (v : Bool) :
    (s.writeTarget f v).cfgNewest = s.cfgNewest := by unfold State.writeTarget; split <;> rfl
@[simp] theorem State.writeTarget_confirmFrom (s : State) (f : Flight) (v : Bool) :
    (s.writeTarget f v).confirmFrom = s.confirmFrom := by unfold State.writeTarget; split <;> rfl
@[simp] theorem State.writeTarget_pending (s : State) (f : Flight) (v : Bool) :
    (s.writeTarget f v).pending = s.pending := by unfold State.writeTarget; split <;> rfl

@[simp] theorem State.startFlight_opState (s : State) :
    (s.startFlight).opState = s.opState := by unfold State.startFlight; (repeat' split) <;> rfl
@[simp] theorem State.startFlight_settleRunning (s : State) :
    (s.startFlight).settleRunning = s.settleRunning := by unfold State.startFlight; (repeat' split) <;> rfl
@[simp] theorem State.startFlight_imageHeld (s : State) :
    (s.startFlight).imageHeld = s.imageHeld := by unfold State.startFlight; (repeat' split) <;> rfl
@[simp] theorem State.startFlight_resetLow (s : State) :
    (s.startFlight).resetLow = s.resetLow := by unfold State.startFlight; (repeat' split) <;> rfl
@[simp] theorem State.startFlight_image (s : State) :
    (s.startFlight).image = s.image := by unfold State.startFlight; (repeat' split) <;> rfl
@[simp] theorem State.startFlight_config (s : State) :
    (s.startFlight).config = s.config := by unfold State.startFlight; (repeat' split) <;> rfl
@[simp] theorem State.startFlight_spindle (s : State) :
    (s.startFlight).spindle = s.spindle := by unfold State.startFlight; (repeat' split) <;> rfl
@[simp] theorem State.startFlight_exchange (s : State) :
    (s.startFlight).exchange = s.exchange := by unfold State.startFlight; (repeat' split) <;> rfl
@[simp] theorem State.startFlight_nextTag (s : State) :
    (s.startFlight).nextTag = s.nextTag := by unfold State.startFlight; (repeat' split) <;> rfl
@[simp] theorem State.startFlight_confirmation (s : State) :
    (s.startFlight).confirmation = s.confirmation := by unfold State.startFlight; (repeat' split) <;> rfl
@[simp] theorem State.startFlight_link (s : State) :
    (s.startFlight).link = s.link := by unfold State.startFlight; (repeat' split) <;> rfl
@[simp] theorem State.startFlight_host (s : State) :
    (s.startFlight).host = s.host := by unfold State.startFlight; (repeat' split) <;> rfl
@[simp] theorem State.startFlight_newest (s : State) :
    (s.startFlight).newest = s.newest := by unfold State.startFlight; (repeat' split) <;> rfl
@[simp] theorem State.startFlight_cfgNewest (s : State) :
    (s.startFlight).cfgNewest = s.cfgNewest := by unfold State.startFlight; (repeat' split) <;> rfl
@[simp] theorem State.startFlight_confirmFrom (s : State) :
    (s.startFlight).confirmFrom = s.confirmFrom := by unfold State.startFlight; (repeat' split) <;> rfl
@[simp] theorem State.startFlight_slotCopies (s : State) :
    (s.startFlight).slotCopies = s.slotCopies := by unfold State.startFlight; (repeat' split) <;> rfl
@[simp] theorem State.startFlight_lostAnswer (s : State) :
    (s.startFlight).lostAnswer = s.lostAnswer := by unfold State.startFlight; (repeat' split) <;> rfl
@[simp] theorem State.startFlight_cfgCopies (s : State) :
    (s.startFlight).cfgCopies = s.cfgCopies := by unfold State.startFlight; (repeat' split) <;> rfl
@[simp] theorem State.startFlight_pending (s : State) :
    (s.startFlight).pending = s.pending := by unfold State.startFlight; (repeat' split) <;> rfl

@[simp] theorem State.completeFlight_opState (s : State) (f : Flight) :
    (s.completeFlight f).opState = s.opState := by unfold State.completeFlight; dsimp only; split <;> simp
@[simp] theorem State.completeFlight_settleRunning (s : State) (f : Flight) :
    (s.completeFlight f).settleRunning = s.settleRunning := by
  unfold State.completeFlight; dsimp only; split <;> simp
@[simp] theorem State.completeFlight_imageHeld (s : State) (f : Flight) :
    (s.completeFlight f).imageHeld = s.imageHeld := by unfold State.completeFlight; dsimp only; split <;> simp
@[simp] theorem State.completeFlight_resetLow (s : State) (f : Flight) :
    (s.completeFlight f).resetLow = s.resetLow := by unfold State.completeFlight; dsimp only; split <;> simp
@[simp] theorem State.completeFlight_config (s : State) (f : Flight) :
    (s.completeFlight f).config = s.config := by unfold State.completeFlight; dsimp only; split <;> simp
@[simp] theorem State.completeFlight_spindle (s : State) (f : Flight) :
    (s.completeFlight f).spindle = s.spindle := by unfold State.completeFlight; dsimp only; split <;> simp
@[simp] theorem State.completeFlight_exchange (s : State) (f : Flight) :
    (s.completeFlight f).exchange = s.exchange := by unfold State.completeFlight; dsimp only; split <;> simp
@[simp] theorem State.completeFlight_nextTag (s : State) (f : Flight) :
    (s.completeFlight f).nextTag = s.nextTag := by unfold State.completeFlight; dsimp only; split <;> simp
@[simp] theorem State.completeFlight_link (s : State) (f : Flight) :
    (s.completeFlight f).link = s.link := by unfold State.completeFlight; dsimp only; split <;> simp
@[simp] theorem State.completeFlight_lostAnswer (s : State) (f : Flight) :
    (s.completeFlight f).lostAnswer = s.lostAnswer := by unfold State.completeFlight; dsimp only; split <;> simp
@[simp] theorem State.completeFlight_host (s : State) (f : Flight) :
    (s.completeFlight f).host = s.host := by unfold State.completeFlight; dsimp only; split <;> simp
@[simp] theorem State.completeFlight_queue (s : State) (f : Flight) :
    (s.completeFlight f).queue = s.queue := by unfold State.completeFlight; dsimp only; split <;> simp
@[simp] theorem State.completeFlight_confirmFrom (s : State) (f : Flight) :
    (s.completeFlight f).confirmFrom = s.confirmFrom := by
  unfold State.completeFlight; dsimp only; split <;> simp
@[simp] theorem State.completeFlight_pending (s : State) (f : Flight) :
    (s.completeFlight f).pending = s.pending := by unfold State.completeFlight; dsimp only; split <;> simp

@[simp] theorem State.failFlight_opState (s : State) (f : Flight) :
    (s.failFlight f).opState = s.opState := by unfold State.failFlight; dsimp only; split <;> simp
@[simp] theorem State.failFlight_settleRunning (s : State) (f : Flight) :
    (s.failFlight f).settleRunning = s.settleRunning := by unfold State.failFlight; dsimp only; split <;> simp
@[simp] theorem State.failFlight_imageHeld (s : State) (f : Flight) :
    (s.failFlight f).imageHeld = s.imageHeld := by unfold State.failFlight; dsimp only; split <;> simp
@[simp] theorem State.failFlight_resetLow (s : State) (f : Flight) :
    (s.failFlight f).resetLow = s.resetLow := by unfold State.failFlight; dsimp only; split <;> simp
@[simp] theorem State.failFlight_config (s : State) (f : Flight) :
    (s.failFlight f).config = s.config := by unfold State.failFlight; dsimp only; split <;> simp
@[simp] theorem State.failFlight_spindle (s : State) (f : Flight) :
    (s.failFlight f).spindle = s.spindle := by unfold State.failFlight; dsimp only; split <;> simp
@[simp] theorem State.failFlight_exchange (s : State) (f : Flight) :
    (s.failFlight f).exchange = s.exchange := by unfold State.failFlight; dsimp only; split <;> simp
@[simp] theorem State.failFlight_nextTag (s : State) (f : Flight) :
    (s.failFlight f).nextTag = s.nextTag := by unfold State.failFlight; dsimp only; split <;> simp
@[simp] theorem State.failFlight_link (s : State) (f : Flight) :
    (s.failFlight f).link = s.link := by unfold State.failFlight; dsimp only; split <;> simp
@[simp] theorem State.failFlight_lostAnswer (s : State) (f : Flight) :
    (s.failFlight f).lostAnswer = s.lostAnswer := by unfold State.failFlight; dsimp only; split <;> simp
@[simp] theorem State.failFlight_newest (s : State) (f : Flight) :
    (s.failFlight f).newest = s.newest := by unfold State.failFlight; dsimp only; split <;> simp
@[simp] theorem State.failFlight_cfgNewest (s : State) (f : Flight) :
    (s.failFlight f).cfgNewest = s.cfgNewest := by unfold State.failFlight; dsimp only; split <;> simp
@[simp] theorem State.failFlight_confirmFrom (s : State) (f : Flight) :
    (s.failFlight f).confirmFrom = s.confirmFrom := by unfold State.failFlight; dsimp only; split <;> simp
@[simp] theorem State.failFlight_pending (s : State) (f : Flight) :
    (s.failFlight f).pending = s.pending := by unfold State.failFlight; dsimp only; split <;> simp

@[simp] theorem State.retryFlight_opState (s : State) (f : Flight) :
    (s.retryFlight f).opState = s.opState := by simp [State.retryFlight]
@[simp] theorem State.retryFlight_settleRunning (s : State) (f : Flight) :
    (s.retryFlight f).settleRunning = s.settleRunning := by simp [State.retryFlight]
@[simp] theorem State.retryFlight_imageHeld (s : State) (f : Flight) :
    (s.retryFlight f).imageHeld = s.imageHeld := by simp [State.retryFlight]
@[simp] theorem State.retryFlight_resetLow (s : State) (f : Flight) :
    (s.retryFlight f).resetLow = s.resetLow := by simp [State.retryFlight]
@[simp] theorem State.retryFlight_image (s : State) (f : Flight) :
    (s.retryFlight f).image = s.image := by simp [State.retryFlight]
@[simp] theorem State.retryFlight_config (s : State) (f : Flight) :
    (s.retryFlight f).config = s.config := by simp [State.retryFlight]
@[simp] theorem State.retryFlight_spindle (s : State) (f : Flight) :
    (s.retryFlight f).spindle = s.spindle := by simp [State.retryFlight]
@[simp] theorem State.retryFlight_exchange (s : State) (f : Flight) :
    (s.retryFlight f).exchange = s.exchange := by simp [State.retryFlight]
@[simp] theorem State.retryFlight_nextTag (s : State) (f : Flight) :
    (s.retryFlight f).nextTag = s.nextTag := by simp [State.retryFlight]
@[simp] theorem State.retryFlight_confirmation (s : State) (f : Flight) :
    (s.retryFlight f).confirmation = s.confirmation := by simp [State.retryFlight]
@[simp] theorem State.retryFlight_link (s : State) (f : Flight) :
    (s.retryFlight f).link = s.link := by simp [State.retryFlight]
@[simp] theorem State.retryFlight_lostAnswer (s : State) (f : Flight) :
    (s.retryFlight f).lostAnswer = s.lostAnswer := by simp [State.retryFlight]
@[simp] theorem State.retryFlight_host (s : State) (f : Flight) :
    (s.retryFlight f).host = s.host := by simp [State.retryFlight]
@[simp] theorem State.retryFlight_queue (s : State) (f : Flight) :
    (s.retryFlight f).queue = s.queue := by simp [State.retryFlight]
@[simp] theorem State.retryFlight_newest (s : State) (f : Flight) :
    (s.retryFlight f).newest = s.newest := by simp [State.retryFlight]
@[simp] theorem State.retryFlight_cfgNewest (s : State) (f : Flight) :
    (s.retryFlight f).cfgNewest = s.cfgNewest := by simp [State.retryFlight]
@[simp] theorem State.retryFlight_confirmFrom (s : State) (f : Flight) :
    (s.retryFlight f).confirmFrom = s.confirmFrom := by simp [State.retryFlight]
@[simp] theorem State.retryFlight_pending (s : State) (f : Flight) :
    (s.retryFlight f).pending = s.pending := by simp [State.retryFlight]

@[simp] theorem State.abandonFlight_opState (s : State) :
    (s.abandonFlight).opState = s.opState := by unfold State.abandonFlight; split <;> simp
@[simp] theorem State.abandonFlight_settleRunning (s : State) :
    (s.abandonFlight).settleRunning = s.settleRunning := by unfold State.abandonFlight; split <;> simp
@[simp] theorem State.abandonFlight_imageHeld (s : State) :
    (s.abandonFlight).imageHeld = s.imageHeld := by unfold State.abandonFlight; split <;> simp
@[simp] theorem State.abandonFlight_resetLow (s : State) :
    (s.abandonFlight).resetLow = s.resetLow := by unfold State.abandonFlight; split <;> simp
@[simp] theorem State.abandonFlight_image (s : State) :
    (s.abandonFlight).image = s.image := by unfold State.abandonFlight; split <;> simp
@[simp] theorem State.abandonFlight_config (s : State) :
    (s.abandonFlight).config = s.config := by unfold State.abandonFlight; split <;> simp
@[simp] theorem State.abandonFlight_spindle (s : State) :
    (s.abandonFlight).spindle = s.spindle := by unfold State.abandonFlight; split <;> simp
@[simp] theorem State.abandonFlight_exchange (s : State) :
    (s.abandonFlight).exchange = s.exchange := by unfold State.abandonFlight; split <;> simp
@[simp] theorem State.abandonFlight_nextTag (s : State) :
    (s.abandonFlight).nextTag = s.nextTag := by unfold State.abandonFlight; split <;> simp
@[simp] theorem State.abandonFlight_confirmation (s : State) :
    (s.abandonFlight).confirmation = s.confirmation := by unfold State.abandonFlight; split <;> simp
@[simp] theorem State.abandonFlight_link (s : State) :
    (s.abandonFlight).link = s.link := by unfold State.abandonFlight; split <;> simp
@[simp] theorem State.abandonFlight_lostAnswer (s : State) :
    (s.abandonFlight).lostAnswer = s.lostAnswer := by unfold State.abandonFlight; split <;> simp
@[simp] theorem State.abandonFlight_host (s : State) :
    (s.abandonFlight).host = s.host := by unfold State.abandonFlight; split <;> simp
@[simp] theorem State.abandonFlight_newest (s : State) :
    (s.abandonFlight).newest = s.newest := by unfold State.abandonFlight; split <;> simp
@[simp] theorem State.abandonFlight_cfgNewest (s : State) :
    (s.abandonFlight).cfgNewest = s.cfgNewest := by unfold State.abandonFlight; split <;> simp
@[simp] theorem State.abandonFlight_confirmFrom (s : State) :
    (s.abandonFlight).confirmFrom = s.confirmFrom := by unfold State.abandonFlight; split <;> simp
@[simp] theorem State.abandonFlight_pending (s : State) :
    (s.abandonFlight).pending = s.pending := by unfold State.abandonFlight; split <;> simp

@[simp] theorem State.endAttempt_opState (s : State) (v : Verify) :
    (s.endAttempt v).opState = s.opState := by unfold State.endAttempt; (repeat' split) <;> simp
@[simp] theorem State.endAttempt_settleRunning (s : State) (v : Verify) :
    (s.endAttempt v).settleRunning = s.settleRunning := by unfold State.endAttempt; (repeat' split) <;> simp
@[simp] theorem State.endAttempt_imageHeld (s : State) (v : Verify) :
    (s.endAttempt v).imageHeld = s.imageHeld := by unfold State.endAttempt; (repeat' split) <;> simp
@[simp] theorem State.endAttempt_resetLow (s : State) (v : Verify) :
    (s.endAttempt v).resetLow = s.resetLow := by unfold State.endAttempt; (repeat' split) <;> simp
@[simp] theorem State.endAttempt_config (s : State) (v : Verify) :
    (s.endAttempt v).config = s.config := by unfold State.endAttempt; (repeat' split) <;> simp
@[simp] theorem State.endAttempt_spindle (s : State) (v : Verify) :
    (s.endAttempt v).spindle = s.spindle := by unfold State.endAttempt; (repeat' split) <;> simp
@[simp] theorem State.endAttempt_exchange (s : State) (v : Verify) :
    (s.endAttempt v).exchange = s.exchange := by unfold State.endAttempt; (repeat' split) <;> simp
@[simp] theorem State.endAttempt_nextTag (s : State) (v : Verify) :
    (s.endAttempt v).nextTag = s.nextTag := by unfold State.endAttempt; (repeat' split) <;> simp
@[simp] theorem State.endAttempt_link (s : State) (v : Verify) :
    (s.endAttempt v).link = s.link := by unfold State.endAttempt; (repeat' split) <;> simp
@[simp] theorem State.endAttempt_lostAnswer (s : State) (v : Verify) :
    (s.endAttempt v).lostAnswer = s.lostAnswer := by unfold State.endAttempt; (repeat' split) <;> simp
@[simp] theorem State.endAttempt_confirmFrom (s : State) (v : Verify) :
    (s.endAttempt v).confirmFrom = s.confirmFrom := by unfold State.endAttempt; (repeat' split) <;> simp
@[simp] theorem State.endAttempt_pending (s : State) (v : Verify) :
    (s.endAttempt v).pending = s.pending := by unfold State.endAttempt; (repeat' split) <;> simp

/-! ### Host commands -/

@[simp] theorem State.retry_opState (s : State) (k : Slot) :
    (s.retry k).opState = s.opState := by unfold State.retry; split <;> rfl
@[simp] theorem State.retry_settleRunning (s : State) (k : Slot) :
    (s.retry k).settleRunning = s.settleRunning := by unfold State.retry; split <;> rfl
@[simp] theorem State.retry_imageHeld (s : State) (k : Slot) :
    (s.retry k).imageHeld = s.imageHeld := by unfold State.retry; split <;> rfl
@[simp] theorem State.retry_resetLow (s : State) (k : Slot) :
    (s.retry k).resetLow = s.resetLow := by unfold State.retry; split <;> rfl
@[simp] theorem State.retry_config (s : State) (k : Slot) :
    (s.retry k).config = s.config := by unfold State.retry; split <;> rfl
@[simp] theorem State.retry_spindle (s : State) (k : Slot) :
    (s.retry k).spindle = s.spindle := by unfold State.retry; split <;> rfl
@[simp] theorem State.retry_exchange (s : State) (k : Slot) :
    (s.retry k).exchange = s.exchange := by unfold State.retry; split <;> rfl
@[simp] theorem State.retry_nextTag (s : State) (k : Slot) :
    (s.retry k).nextTag = s.nextTag := by unfold State.retry; split <;> rfl
@[simp] theorem State.retry_confirmation (s : State) (k : Slot) :
    (s.retry k).confirmation = s.confirmation := by unfold State.retry; split <;> rfl
@[simp] theorem State.retry_link (s : State) (k : Slot) :
    (s.retry k).link = s.link := by unfold State.retry; split <;> rfl
@[simp] theorem State.retry_host (s : State) (k : Slot) :
    (s.retry k).host = s.host := by unfold State.retry; split <;> rfl
@[simp] theorem State.retry_flight (s : State) (k : Slot) :
    (s.retry k).flight = s.flight := by unfold State.retry; split <;> rfl
@[simp] theorem State.retry_newest (s : State) (k : Slot) :
    (s.retry k).newest = s.newest := by unfold State.retry; split <;> rfl
@[simp] theorem State.retry_cfgNewest (s : State) (k : Slot) :
    (s.retry k).cfgNewest = s.cfgNewest := by unfold State.retry; split <;> rfl
@[simp] theorem State.retry_confirmFrom (s : State) (k : Slot) :
    (s.retry k).confirmFrom = s.confirmFrom := by unfold State.retry; split <;> rfl
@[simp] theorem State.retry_slotCopies (s : State) (k : Slot) :
    (s.retry k).slotCopies = s.slotCopies := by unfold State.retry; split <;> rfl
@[simp] theorem State.retry_lostAnswer (s : State) (k : Slot) :
    (s.retry k).lostAnswer = s.lostAnswer := by unfold State.retry; split <;> rfl
@[simp] theorem State.retry_cfgCopies (s : State) (k : Slot) :
    (s.retry k).cfgCopies = s.cfgCopies := by unfold State.retry; split <;> rfl
@[simp] theorem State.retry_pending (s : State) (k : Slot) :
    (s.retry k).pending = s.pending := by unfold State.retry; split <;> rfl

@[simp] theorem State.applyStore_opState (s : State) (k : Slot) (r : Record) :
    (s.applyStore k r).opState = s.opState := by simp [State.applyStore]
@[simp] theorem State.applyStore_settleRunning (s : State) (k : Slot) (r : Record) :
    (s.applyStore k r).settleRunning = s.settleRunning := by simp [State.applyStore]
@[simp] theorem State.applyStore_imageHeld (s : State) (k : Slot) (r : Record) :
    (s.applyStore k r).imageHeld = s.imageHeld := by simp [State.applyStore]
@[simp] theorem State.applyStore_resetLow (s : State) (k : Slot) (r : Record) :
    (s.applyStore k r).resetLow = s.resetLow := by simp [State.applyStore]
@[simp] theorem State.applyStore_config (s : State) (k : Slot) (r : Record) :
    (s.applyStore k r).config = s.config := by simp [State.applyStore]
@[simp] theorem State.applyStore_exchange (s : State) (k : Slot) (r : Record) :
    (s.applyStore k r).exchange = s.exchange := by simp [State.applyStore]
@[simp] theorem State.applyStore_nextTag (s : State) (k : Slot) (r : Record) :
    (s.applyStore k r).nextTag = s.nextTag := by simp [State.applyStore]
@[simp] theorem State.applyStore_confirmation (s : State) (k : Slot) (r : Record) :
    (s.applyStore k r).confirmation = s.confirmation := by simp [State.applyStore]
@[simp] theorem State.applyStore_link (s : State) (k : Slot) (r : Record) :
    (s.applyStore k r).link = s.link := by simp [State.applyStore]
@[simp] theorem State.applyStore_host (s : State) (k : Slot) (r : Record) :
    (s.applyStore k r).host = s.host := by simp [State.applyStore]
@[simp] theorem State.applyStore_flight (s : State) (k : Slot) (r : Record) :
    (s.applyStore k r).flight = s.flight := by simp [State.applyStore]
@[simp] theorem State.applyStore_newest (s : State) (k : Slot) (r : Record) :
    (s.applyStore k r).newest = s.newest := by simp [State.applyStore]
@[simp] theorem State.applyStore_cfgNewest (s : State) (k : Slot) (r : Record) :
    (s.applyStore k r).cfgNewest = s.cfgNewest := by simp [State.applyStore]
@[simp] theorem State.applyStore_confirmFrom (s : State) (k : Slot) (r : Record) :
    (s.applyStore k r).confirmFrom = s.confirmFrom := by simp [State.applyStore]
@[simp] theorem State.applyStore_slotCopies (s : State) (k : Slot) (r : Record) :
    (s.applyStore k r).slotCopies = s.slotCopies := by simp [State.applyStore]
@[simp] theorem State.applyStore_lostAnswer (s : State) (k : Slot) (r : Record) :
    (s.applyStore k r).lostAnswer = s.lostAnswer := by simp [State.applyStore]
@[simp] theorem State.applyStore_cfgCopies (s : State) (k : Slot) (r : Record) :
    (s.applyStore k r).cfgCopies = s.cfgCopies := by simp [State.applyStore]
@[simp] theorem State.applyStore_pending (s : State) (k : Slot) (r : Record) :
    (s.applyStore k r).pending = s.pending := by simp [State.applyStore]

@[simp] theorem State.applyConfig_opState (s : State) (c : Configuration) :
    (s.applyConfig c).opState = s.opState := by unfold State.applyConfig; split <;> rfl
@[simp] theorem State.applyConfig_settleRunning (s : State) (c : Configuration) :
    (s.applyConfig c).settleRunning = s.settleRunning := by unfold State.applyConfig; split <;> rfl
@[simp] theorem State.applyConfig_imageHeld (s : State) (c : Configuration) :
    (s.applyConfig c).imageHeld = s.imageHeld := by unfold State.applyConfig; split <;> rfl
@[simp] theorem State.applyConfig_resetLow (s : State) (c : Configuration) :
    (s.applyConfig c).resetLow = s.resetLow := by unfold State.applyConfig; split <;> rfl
@[simp] theorem State.applyConfig_image (s : State) (c : Configuration) :
    (s.applyConfig c).image = s.image := by unfold State.applyConfig; split <;> rfl
@[simp] theorem State.applyConfig_spindle (s : State) (c : Configuration) :
    (s.applyConfig c).spindle = s.spindle := by unfold State.applyConfig; split <;> rfl
@[simp] theorem State.applyConfig_exchange (s : State) (c : Configuration) :
    (s.applyConfig c).exchange = s.exchange := by unfold State.applyConfig; split <;> rfl
@[simp] theorem State.applyConfig_nextTag (s : State) (c : Configuration) :
    (s.applyConfig c).nextTag = s.nextTag := by unfold State.applyConfig; split <;> rfl
@[simp] theorem State.applyConfig_confirmation (s : State) (c : Configuration) :
    (s.applyConfig c).confirmation = s.confirmation := by unfold State.applyConfig; split <;> rfl
@[simp] theorem State.applyConfig_link (s : State) (c : Configuration) :
    (s.applyConfig c).link = s.link := by unfold State.applyConfig; split <;> rfl
@[simp] theorem State.applyConfig_host (s : State) (c : Configuration) :
    (s.applyConfig c).host = s.host := by unfold State.applyConfig; split <;> rfl
@[simp] theorem State.applyConfig_flight (s : State) (c : Configuration) :
    (s.applyConfig c).flight = s.flight := by unfold State.applyConfig; split <;> rfl
@[simp] theorem State.applyConfig_newest (s : State) (c : Configuration) :
    (s.applyConfig c).newest = s.newest := by unfold State.applyConfig; split <;> rfl
@[simp] theorem State.applyConfig_cfgNewest (s : State) (c : Configuration) :
    (s.applyConfig c).cfgNewest = s.cfgNewest := by unfold State.applyConfig; split <;> rfl
@[simp] theorem State.applyConfig_confirmFrom (s : State) (c : Configuration) :
    (s.applyConfig c).confirmFrom = s.confirmFrom := by unfold State.applyConfig; split <;> rfl
@[simp] theorem State.applyConfig_slotCopies (s : State) (c : Configuration) :
    (s.applyConfig c).slotCopies = s.slotCopies := by unfold State.applyConfig; split <;> rfl
@[simp] theorem State.applyConfig_lostAnswer (s : State) (c : Configuration) :
    (s.applyConfig c).lostAnswer = s.lostAnswer := by unfold State.applyConfig; split <;> rfl
@[simp] theorem State.applyConfig_cfgCopies (s : State) (c : Configuration) :
    (s.applyConfig c).cfgCopies = s.cfgCopies := by unfold State.applyConfig; split <;> rfl
@[simp] theorem State.applyConfig_pending (s : State) (c : Configuration) :
    (s.applyConfig c).pending = s.pending := by unfold State.applyConfig; split <;> rfl


end Sys2Proof.Machine
end

