-- ==== Sys2Proof/Laws/Claims.lean ====
section
/-! SUPPORT. The claim and the handing: what they do to the image and to the commit queue (R3, R152). -/

namespace Sys2Proof.Machine

set_option Elab.async false

theorem State.claim_slot_self (s : State) (k : Slot) (new : Record) (c) : (s.claim k new c).slot k =
   if new = s.record k then s.slot k else
    { fields := new, attn := (s.slot k).attn || entersAttention (s.record k) new, dirty := true,
      storeFault := (s.slot k).storeFault, stamp := (s.slot k).stamp + 1 } := by
  unfold State.claim; split
  · rfl
  · exact State.slot_setSlot_self s k _

theorem State.claim_slot_other (s : State) (k : Slot) (new : Record) (c) {j} (h : j ≠ k) :
    (s.claim k new c).slot j = s.slot j := by
  unfold State.claim; split
  · rfl
  · exact State.slot_setSlot_other s _ h

theorem State.claim_queue (s : State) (k : Slot) (new : Record) (c) : (s.claim k new c).queue =
   if new = s.record k then s.queue else s.queue.hand (.slot k) c := by
  unfold State.claim; split <;> rfl

/-- All that a claim does (R3, R14, R17, R152): a state with its image and queue stands to the state before as Claimed
says. -/
theorem State.claimed_of_claim (s : State) (k new c) (t : State) (hi : t.image = (s.claim k new c).image) (hq :
    t.queue = (s.claim k new c).queue) : s.Claimed t k new c := by
  refine ⟨fun j h => ?_, ?_, ?_⟩
  · rw [State.slot_eq _ _ hi, State.claim_slot_other _ _ _ _ h]
  · rw [State.slot_eq _ _ hi, State.claim_slot_self]
  · rw [hq, State.claim_queue]

theorem State.claim_unchanged (s : State) (k c) (r) (h : r = s.record k) : s.claim k r c = s := by
    simp [State.claim, h]

theorem State.claim_record_other (s : State) (k : Slot) (new : Record) (c) {j} (h : j ≠ k) :
    (s.claim k new c).record j = s.record j := by
  unfold State.record; rw [State.claim_slot_other _ _ _ _ h]

/-- A claim changes the image and the queue alone. -/
theorem State.claim_eq (s : State) (k new c) : s.claim k new c = { s with image := (s.claim k new c).image,
                                                                          queue := (s.claim k new c).queue } := by
  unfold State.claim; split <;> rfl

theorem CommitQueue.holds_iff (q : CommitQueue) (e) : q.holds e = true ↔ e ∈ q.urgent ∨ e ∈ q.normal := by
    simp [CommitQueue.holds]

theorem filter_ne_of_not_mem {e : Entry} {l : List Entry} (h : e ∉ l) : l.filter (fun x => x != e) = l := by
  rw [List.filter_eq_self]; intro a ha; simp; rintro rfl; exact h ha

/-- R151: a handing keeps the queue free of repeats. -/
theorem CommitQueue.hand_nodup (q : CommitQueue) (e cls) (h : (q.urgent ++ q.normal).Nodup) :
    ((q.hand e cls).urgent ++ (q.hand e cls).normal).Nodup := by
  rw [List.nodup_append] at h
  obtain ⟨h1, h2, h3⟩ := h
  unfold CommitQueue.hand
  cases cls
  · simp only
    split
    · rw [List.nodup_append]; exact ⟨h1, h2, h3⟩
    · rename_i hu
      have hu : e ∉ q.urgent := by simpa using hu
      simp only [List.nodup_append, List.mem_append, List.mem_singleton, List.mem_filter, bne_iff_ne]
      refine ⟨⟨h1, by simp, ?_⟩, h2.filter _, ?_⟩
      · rintro a ha b rfl; rintro rfl; exact hu ha
      · rintro a (ha | rfl) b ⟨hb, hb'⟩
        · exact h3 a ha b hb
        · exact fun e => hb' e.symm
  · simp only
    split
    · rw [List.nodup_append]; exact ⟨h1, h2, h3⟩
    · rename_i hu
      rw [CommitQueue.holds_iff] at hu; push Not at hu
      simp only [List.nodup_append, List.mem_append, List.mem_singleton]
      refine ⟨h1, ⟨h2, by simp, ?_⟩, ?_⟩
      · rintro a ha b rfl; rintro rfl; exact hu.2 ha
      · rintro a ha b (hb | rfl)
        · exact h3 a ha b hb
        · rintro rfl; exact hu.1 ha

/-- R152: the entry handed stands in the queue. -/
theorem CommitQueue.hand_holds (q : CommitQueue) (e cls) : (q.hand e cls).holds e = true := by
  unfold CommitQueue.hand; cases cls <;> simp only <;> split
  · rename_i h; rw [CommitQueue.holds_iff]; left; simpa using h
  · rw [CommitQueue.holds_iff]; simp
  · assumption
  · rw [CommitQueue.holds_iff]; simp

def entryCode : Entry → Fin 129
  | .slot k => ⟨k.val, by omega⟩
  | .cfg => 128

theorem entryCode_injective : Function.Injective entryCode := by
  intro a b h
  cases a <;> cases b <;> simp [entryCode, Fin.ext_iff] at h ⊢ <;> omega

/-- R151: a queue without repeats has at most 129 entries. -/
theorem length_le_of_nodup (l : List Entry) (h : l.Nodup) : l.length ≤ 129 := by
  have : (l.map entryCode).Nodup := h.map entryCode_injective
  have := this.length_le_card
  simpa using this

end Sys2Proof.Machine
end

