-- ==== Sys2Proof/Laws/Commits.lean ====
section
/-! SUPPORT. The flight: the copies it writes and the notices it sends (R154–R159). -/

namespace Sys2Proof.Machine

set_option Elab.async false

theorem State.writeTarget_false_slotCopies (s : State) (f : Flight) (k : Slot) :
    (s.writeTarget f false).slotCopies[k] =
   if f.content.entry = .slot k then (s.slotCopies[k]).put f.target .invalid else s.slotCopies[k] := by
  unfold State.writeTarget
  cases hc : f.content with
  | slot j r st =>
    simp [Snapshot.entry]
    by_cases h : j = k
    · subst h; simp
    · have : (j : Nat) ≠ k := fun e => h (Fin.ext e)
      simp [this, h]
  | cfg c => simp [Snapshot.entry]

theorem State.writeTarget_false_cfgCopies (s : State) (f : Flight) : (s.writeTarget f false).cfgCopies =
   if f.content.entry = .cfg then s.cfgCopies.put f.target .invalid else s.cfgCopies := by
  unfold State.writeTarget
  cases hc : f.content <;> simp [Snapshot.entry]

/-- R159: with no flight nothing is abandoned. -/
theorem State.abandonFlight_none (s : State) (h : s.flight = none) : s.abandonFlight = s := by
  simp [State.abandonFlight, h]

/-- R154: the copies after a write of the target. -/
theorem State.writeTarget_slotCopies (s : State) (f : Flight) (v k r st) (hc : f.content = .slot k r st) :
    (s.writeTarget f v).slotCopies[k] = (s.slotCopies[k]).put f.target (if v then .valid r f.gen else .invalid) ∧
    ∀ j : Slot, j ≠ k → (s.writeTarget f v).slotCopies[j] = s.slotCopies[j] := by
  unfold State.writeTarget; rw [hc]
  refine ⟨by simp, fun j hj => ?_⟩
  have : (k : Nat) ≠ j := fun e => hj (Fin.ext e.symm)
  simp [this]

theorem State.notify_eq (s : State) (k a b) :
    s.notify k a b = { s with confirmation := (s.notify k a b).confirmation } := by
  unfold State.notify; split
  · split <;> rfl
  · rfl

theorem State.snapshotAfter_iff (s : State) (k : Slot) (st) : s.snapshotAfter k st = true ↔ ∃ c,
    s.confirmFrom[k] = some c ∧ (st - c).toNat ≤ 32767 := by
  unfold State.snapshotAfter; cases s.confirmFrom[k] <;> simp

/-- R81, R158: a notice of a commit after the claim. -/
theorem State.notify_waiting (s : State) (k a st) (h : s.snapshotAfter k st = true) (c) (hc : s.confirmation = some c)
    (hm : (k, false) ∈ c.waiting) : (s.notify k a (s.snapshotAfter k st)).confirmation =
    some (if a then c.markSlot k else c.noteFailure k) := by
  simp [State.notify, hc, h, Confirmation.awaits, hm]

/-- R81, R158: every other notice changes nothing. -/
theorem State.notify_other (s : State) (k a st) (h : (∀ c, s.confirmation = some c → (k, false) ∉ c.waiting) ∨
    s.snapshotAfter k st = false) : (s.notify k a (s.snapshotAfter k st)).confirmation = s.confirmation := by
  unfold State.notify
  cases hc : s.confirmation with
  | none => simp [hc]
  | some c =>
    rcases h with h | h
    · have := h c hc; simp [Confirmation.awaits, this, hc]
    · simp [h, hc]

end Sys2Proof.Machine
end

