-- ==== Sys2Proof/Laws/Magazine.lean ====
section
/-! SUPPORT. The Call Index, the marks of a pocket and the placement test, over the records (R34–R40, R56–R69). -/

namespace Sys2Proof.Machine

set_option Elab.async false

theorem Condition.retired_iff (c : Condition) : c.retired = true ↔ c = .worn ∨ c = .damaged := by
    cases c <;> simp [Condition.retired]

theorem slots_nodup : slots.Nodup := List.nodup_finRange 128

theorem mem_slots (k : Slot) : k ∈ slots := List.mem_finRange k

theorem Condition.usable_iff (c : Condition) : c.usable = true ↔ c = .fresh ∨ c = .used ∨ c = .nearEnd := by
    cases c <;> simp [Condition.usable]

theorem Location.reachable_iff (l : Location) : l.reachable = true ↔ (∃ p, l = .pocket p) ∨ l = .spindle := by
    cases l <;> simp [Location.reachable]

/-- R39: the selectable predicate. -/
theorem Record.selectable_iff (r : Record) : r.selectable = true ↔ r.eligible := by
  simp [Record.selectable, Record.eligible, Record.alive, Condition.usable_iff, Location.reachable_iff]; tauto

theorem Record.isSpindleChoice_iff (r : Record) : r.isSpindleChoice = true ↔ r.spindleChoice := by
  simp [Record.isSpindleChoice, Record.spindleChoice, Record.selectable_iff]

theorem Record.isWaiting_iff (r : Record) : r.isWaiting = true ↔ r.waitingSister := by
  unfold Record.isWaiting Record.waitingSister Record.alive
  rw [← Record.selectable_iff]; simp [Condition.usable_iff]

theorem Record.candidatePocket_eq_some (r : Record) (p) : r.candidatePocket = some p ↔ r.eligible ∧
    r.location = .pocket p := by
  unfold Record.candidatePocket
  rw [← Record.selectable_iff]
  split
  · cases r.location <;> simp_all
  · simp_all

theorem Record.candidatePocket_eq_none (r : Record) : r.candidatePocket = none ↔ ¬ r.pocketCandidate := by
  unfold Record.pocketCandidate
  rw [← not_iff_not]; push Not
  rw [← Option.isSome_iff_ne_none, Option.isSome_iff_exists]
  simp [Record.candidatePocket_eq_some]

theorem find?_of_first {α} (P : α → Bool) (Q : α → Prop) (h : ∀ a, P a = true ↔ Q a) (l a) (hf : First Q l a) :
    l.find? P = some a := by
  obtain ⟨b, c, rfl, hq, hn⟩ := hf
  rw [List.find?_append]
  have : b.find? P = none := by simp; intro x hx; have := hn x hx; rw [← h] at this; simpa using this
  rw [this]; simp [(h a).2 hq]

theorem State.indexInsert_congr (s t : State) (h : t.image = s.image) (k l) : t.indexInsert k l = s.indexInsert k l :=
    by
  induction l with
  | nil => rfl
  | cons a l ih => simp only [State.indexInsert, State.indexBefore, State.record_eq s t h, ih]; rfl

theorem State.callIndex_congr (s t : State) (h : t.image = s.image) (n) : t.callIndex n = s.callIndex n := by
  unfold State.callIndex
  simp only [State.record_eq s t h]
  congr 1
  funext k l; exact State.indexInsert_congr s t h k l

/-- The choice reads the image alone. -/
theorem State.choose_congr (s t : State) (h : t.image = s.image) (n) : t.choose n = s.choose n := by
  simp only [State.choose, State.callIndex_congr s t h, State.record_eq s t h]

theorem State.anySlot_iff (s : State) (gone : List Slot) (t : Record → Bool) : s.anySlot gone t = true ↔ ∃ k,
    k ∉ gone ∧ (s.record k).condition ≠ .vacant ∧ t (s.record k) = true := by
  simp [State.anySlot, mem_slots, Record.occupied, and_assoc]

/-- R57, R58, R66: a pocket is marked when a tool of the view names it. -/
theorem State.markedIn_iff (s : State) (gone p) : s.markedIn gone p = true ↔ ∃ k, k ∉ gone ∧
    (s.record k).condition ≠ .vacant ∧ (s.record k).location.pocketPart = some p := by
  simp only [State.markedIn, State.occupiedIn, State.reservedIn, State.unknownIn, Bool.or_eq_true, State.anySlot_iff]
  have : ∀ l : Location, l.pocketPart = some p ↔ (l.standsIn p = true ∨ l.reserves p = true) ∨ l.doubts p = true := by
    intro l; cases l <;> simp [Location.pocketPart, Location.standsIn, Location.reserves, Location.doubts]
  simp only [this]
  constructor
  · rintro ((⟨k, a, b, c⟩ | ⟨k, a, b, c⟩) | ⟨k, a, b, c⟩) <;> exact ⟨k, a, b, by simp [c]⟩
  · rintro ⟨k, a, b, (c | c) | c⟩
    · exact .inl (.inl ⟨k, a, b, c⟩)
    · exact .inl (.inr ⟨k, a, b, c⟩)
    · exact .inr ⟨k, a, b, c⟩

/-- R59: a LARGE tool of the view names the pocket. -/
theorem State.largeAt_iff (s : State) (gone p) : s.largeAt gone p = true ↔ ∃ k, k ∉ gone ∧
    (s.record k).condition ≠ .vacant ∧ (s.record k).size = .large ∧ (s.record k).location.pocketPart = some p := by
  simp only [State.largeAt, State.anySlot_iff]
  have : ∀ l : Location, (l.standsIn p || l.reserves p || l.doubts p) = true ↔ l.pocketPart = some p := by
    intro l; cases l <;> simp [Location.pocketPart, Location.standsIn, Location.reserves, Location.doubts]
  simp [this]

theorem State.occupiedIn_of_not_marked (s : State) (gone p) (h : s.markedIn gone p = false) :
    s.occupiedIn gone p = false := by
  simp [State.markedIn] at h; exact h.1.1

/-- R55: the ring neighbours of a pocket of the ring. -/
theorem ring_neighbours (P p : Nat) (h1 : 1 ≤ p) (h2 : p ≤ P) : ringBefore P p = neighbourBefore P p ∧
    ringAfter P p = neighbourAfter P p := by
  unfold ringBefore neighbourBefore ringAfter neighbourAfter
  constructor
  · split <;> split <;> omega
  · split <;> split <;> omega

/-- R67: the order of examination covers the ring. -/
theorem mem_ringFrom (P p q : Nat) (h1 : 1 ≤ p) (h2 : p ≤ P) : q ∈ ringFrom P p ↔ 1 ≤ q ∧ q ≤ P := by
  simp [ringFrom, List.mem_range'_1]; omega

/-- R67: the pockets are examined in increasing distance from the first. -/
theorem ringFrom_pairwise (P p : Nat) (h1 : 1 ≤ p) (h2 : p ≤ P) : (ringFrom P p).Pairwise (fun a b =>
    stepsRound P p a < stepsRound P p b) := by
  rw [ringFrom, List.pairwise_append]
  refine ⟨?_, ?_, ?_⟩
  · have := List.pairwise_lt_range' (s := p) (n := P + 1 - p) (step := 1)
    refine (List.pairwise_lt_range' (s := p) (n := P + 1 - p) (step := 1)).imp_of_mem ?_
    intro a b ha hb h
    rw [List.mem_range'_1] at ha hb
    unfold stepsRound; rw [if_pos (by omega), if_pos (by omega)]; omega
  · refine (List.pairwise_lt_range' (s := 1) (n := p - 1) (step := 1)).imp_of_mem ?_
    intro a b ha hb h
    rw [List.mem_range'_1] at ha hb
    unfold stepsRound; rw [if_neg (by omega), if_neg (by omega)]; omega
  · intro a ha b hb
    rw [List.mem_range'_1] at ha hb
    unfold stepsRound; rw [if_pos (by omega), if_neg (by omega)]; omega

theorem find?_least {l : List Nat} {f : Nat → Nat} (hl : l.Pairwise (fun a b => f a < f b)) (P : Nat → Bool) (p) (hp :
    p ∈ l) (h : P p = true)
  (hm : ∀ q, P q = true → f p ≤ f q) : l.find? P = some p := by
  induction l with
  | nil => simp at hp
  | cons a l ih =>
    rw [List.pairwise_cons] at hl
    by_cases ha : P a = true
    · rw [List.find?_cons_of_pos ha]
      rcases List.mem_cons.1 hp with rfl | hp
      · rfl
      · have := hl.1 p hp; have := hm a ha; omega
    · rw [List.find?_cons_of_neg ha]
      rcases List.mem_cons.1 hp with rfl | hp
      · exact absurd h ha
      · exact ih hl.2 hp

theorem State.placeable_ring (s : State) (g z p) (h : s.placeable g z p = true) : 1 ≤ p ∧ p ≤ s.pockets := by
  simp only [State.placeable, Bool.and_eq_true, decide_eq_true_eq] at h
  exact h.1.1.1

/-- R67, R68: the first valid pocket of the examination is the nearest one. -/
theorem State.firstPlaceable_eq_some (s : State) (g z src p) (h1 : 1 ≤ src) (h2 : src ≤ s.pockets) (h :
    s.placeable g z p = true) (hm : ∀ q, s.placeable g z q = true →
    stepsRound s.pockets src p ≤ stepsRound s.pockets src q) :
   s.firstPlaceable g z (ringFrom s.pockets src) = some p :=
  find?_least (ringFrom_pairwise _ _ h1 h2) _ p ((mem_ringFrom _ _ _ h1 h2).2 (State.placeable_ring _ _ _ _ h)) h hm

theorem State.firstPlaceable_eq_none (s : State) (g z l) (h : ∀ q, s.placeable g z q = false) :
    s.firstPlaceable g z l = none := by
  simp [State.firstPlaceable, h]

theorem State.placeable_congr (s t : State) (hi : t.image = s.image) (hc : t.config = s.config) (g z p) :
    t.placeable g z p = s.placeable g z p := by
  have hp : t.pockets = s.pockets := by simp [State.pockets, hc]
  simp [State.placeable, State.markedIn, State.blockedIn, State.occupiedIn, State.reservedIn, State.unknownIn,
      State.largeAt, State.anySlot, State.record_eq s t hi, hp]

theorem State.returnForCall_congr (s t : State) (hi : t.image = s.image) (hc : t.config = s.config) (k i p) :
    t.returnForCall k i p = s.returnForCall k i p := by
  have hp : t.pockets = s.pockets := by simp [State.pockets, hc]
  have hp' : t.policy = s.policy := by simp [State.policy, hc]
  simp [State.returnForCall, State.firstPlaceable, State.placeable_congr s t hi hc, State.record_eq s t hi, hp, hp']

theorem State.returnForPutaway_congr (s t : State) (hi : t.image = s.image) (hc : t.config = s.config) (k) :
    t.returnForPutaway k = s.returnForPutaway k := by
  have hp : t.pockets = s.pockets := by simp [State.pockets, hc]
  have hp' : t.policy = s.policy := by simp [State.policy, hc]
  simp [State.returnForPutaway, State.firstPlaceable, State.placeable_congr s t hi hc, State.record_eq s t hi, hp,
      hp']

theorem Record.occupied_iff (r : Record) : r.occupied = true ↔ r.condition ≠ .vacant := by simp [Record.occupied]

theorem Record.occupied_eq_false (r : Record) : r.occupied = false ↔ r.condition = .vacant := by
    simp [Record.occupied]

/-- The first slot that satisfies a test is the lowest one. -/
theorem slots_find?_eq_some (p : Slot → Bool) (k : Slot) : slots.find? p = some k ↔ p k = true ∧ ∀ j, j < k →
    p j = false := by
  constructor
  · intro h
    refine ⟨List.find?_some h, fun j hj => ?_⟩
    rw [List.find?_eq_some_iff_append] at h
    obtain ⟨_, a, b, e, hn⟩ := h
    have hjm : j ∈ a ++ k :: b := by rw [← e]; exact mem_slots j
    have hs : slots.Pairwise (· < ·) := by rw [slots]; exact List.pairwise_lt_finRange 128
    rw [e, List.pairwise_append, List.pairwise_cons] at hs
    rcases List.mem_append.1 hjm with h | h
    · simpa using hn j h
    · rcases List.mem_cons.1 h with rfl | h
      · exact absurd hj (lt_irrefl _)
      · exact absurd hj (not_lt.2 (le_of_lt (hs.2.1.1 j h)))
  · rintro ⟨h, hm⟩
    cases hf : slots.find? p with
    | none => rw [List.find?_eq_none] at hf; exact absurd h (hf k (mem_slots k))
    | some i =>
      have hi := List.find?_some hf
      have hik : ¬ i < k := fun hlt => by rw [hm i hlt] at hi; cases hi
      have hs : slots.Pairwise (· < ·) := by rw [slots]; exact List.pairwise_lt_finRange 128
      rw [List.find?_eq_some_iff_append] at hf
      obtain ⟨_, a, b, e, hn⟩ := hf
      have hkm : k ∈ a ++ i :: b := by rw [← e]; exact mem_slots k
      rw [e, List.pairwise_append, List.pairwise_cons] at hs
      rcases List.mem_append.1 hkm with h' | h'
      · have := hn k h'; rw [h] at this; cases this
      · rcases List.mem_cons.1 h' with rfl | h'
        · rfl
        · exact absurd (hs.2.1.1 k h') hik

end Sys2Proof.Machine
end

