-- ==== Sys2Proof/Laws/Requests.lean ====
section
/-! SUPPORT. The latch and the hand-on of a request word: what each request comes to (R98, R100, R101). -/

namespace Sys2Proof.Machine

set_option Elab.async false

theorem State.latchRequest_not_served (s : State) (h : s.served = false) (k o t d) : s.latchRequest k o t d = s := by
  simp [State.latchRequest, h]

theorem State.latchRequest_not_accepted (s : State) (h : s.link.rqMark = false) (k o t d) :
    s.latchRequest k o t d = s := by
  simp [State.latchRequest, h]

theorem State.served_of_on (s : State) (h : s.opState ≠ .off) (h' : s.resetLow = false) : s.served = true := by
  unfold State.served; rw [h']; cases hs : s.opState <;> simp_all

/-- Tests 2 and 3 of the decode (R98) are the table of kinds and operands. -/
theorem requestAccepted_iff (k : BitVec 4) (o : BitVec 12) : requestAccepted k o = true ↔ requestFits k o := by
  unfold requestFits
  have : k = 0 ∨ k = 1 ∨ k = 2 ∨ k = 3 ∨ k = 4 ∨ k = 5 ∨ k = 6 ∨ k = 7 ∨ k = 8 ∨ k = 9 ∨ k = 10 ∨ k = 11 ∨ k = 12 ∨
      k = 13 ∨ k = 14 ∨ k = 15 := by
    revert k; decide
  rcases this with h|h|h|h|h|h|h|h|h|h|h|h|h|h|h|h <;> subst h <;> simp [requestAccepted]

/-- R98, R107: outside RUNNING the link answers the word itself. -/
theorem State.latchRequest_not_running (s : State) (k o t d a) (h1 : s.resetLow = false) (h2 : s.link.rqMark = true)
    (h0 : s.opState ≠ .off)
   (h : s.opState.linkAnswer = some a) : s.latchRequest k o t d = { s with link := s.link.answered k o a } := by
  simp [State.latchRequest, State.served_of_on s h0 h1, h2, h, State.setLink, Link.answer, Link.answered, requestWord]

/-- R98: in RUNNING the link answers a word that does not fit by BAD_REQUEST. -/
theorem State.latchRequest_misfit (s : State) (k o t d) (h1 : s.resetLow = false) (h2 : s.link.rqMark = true) (h0 :
    s.opState = .running)
   (h : requestAccepted k o = false) :
       s.latchRequest k o t d = { s with link := s.link.answered k o (.badRequest k.toNat) } := by
  simp [State.latchRequest, State.served_of_on s
      (by simp [h0]) h1, h2, h, h0, OpState.linkAnswer, State.setLink, Link.answer, Link.answered, requestWord]

/-- R100, R101: a request that fits, in RUNNING, is handed on and decided in the same step. -/
theorem State.latchRequest_arrives (s : State) (ha : s.RequestArrives) (k o t d) (h : requestFits k o) :
    s.latchRequest k o t d = match t with | .inStep => d (s.handed k o) | .later => s.handed k o := by
  have := (requestAccepted_iff k o).2 h
  obtain ⟨h0, h1, h2⟩ := ha
  cases t <;>
    simp [State.latchRequest, State.served_of_on s
      (by simp [h0]) h1, h2, this, h0, OpState.linkAnswer, State.setLink, State.handed, requestWord]

theorem requestWord_toNat (k : BitVec 4) (o : BitVec 12) : (k ++ o).toNat = 4096 * k.toNat + o.toNat := by
  have h := BitVec.toNat_append k o
  rw [← Nat.shiftLeft_add_eq_or_of_lt o.isLt, Nat.shiftLeft_eq] at h
  omega

theorem request_fields (k : BitVec 4) (o : BitVec 12) : requestKind (k ++ o) = k ∧ requestOperand (k ++ o) = o := by
  have h := requestWord_toNat k o
  have := k.isLt; have := o.isLt
  constructor <;> apply BitVec.eq_of_toNat_eq
  · simp only [requestKind, BitVec.extractLsb'_toNat, Nat.shiftRight_eq_div_pow]; rw [h]; omega
  · simp only [requestOperand, BitVec.extractLsb'_toNat, Nat.shiftRight_zero]; rw [h]; omega

/-- R101: the block takes the request that stands handed on. -/
theorem State.takeHandedOn_handed (s : State) (ha : s.RequestArrives) (k o) :
    (s.handed k o).takeHandedOn = (s.handed k o).decideRequest k o := by
  have h0 := ha.running
  simp [State.takeHandedOn, State.handed, h0, request_fields]

/-- R19–R25: the decision of a CHARGE that meets a tool in the spindle. -/
theorem State.decideCharge_holds (s : State) (n k) (h : s.spindle = .holds k) :
    s.decideCharge n = (s.claim k ((s.record k).afterCharge n) (chargeClass (s.record k)
    ((s.record k).afterCharge n))).answer ((s.record k).afterCharge n).chargeAnswer := by
  simp [State.decideCharge, h]

theorem State.decideCharge_refused (s : State) (n a) (h : (s.spindle = .exchanging ∧ a = .busyExchange) ∨
    (s.spindle = .unknown ∧ a = .spindleUnknown) ∨
      (s.spindle = .empty ∧ a = .spindleEmpty)) : s.decideCharge n = s.answer a := by
  rcases h with ⟨h, rfl⟩ | ⟨h, rfl⟩ | ⟨h, rfl⟩ <;> simp [State.decideCharge, h]

/-- R26: the decision of a DAMAGE that meets a tool in the spindle. -/
theorem State.decideDamage_holds (s : State) (k) (h : s.spindle = .holds k) :
    s.decideDamage = (s.claim k
    { s.record k with condition := .damaged } .urgent).answer (.damageNoted (s.record k).tool) := by
  simp [State.decideDamage, h]

theorem State.decideDamage_refused (s : State) (a) (h : (s.spindle = .exchanging ∧ a = .busyExchange) ∨
    (s.spindle = .unknown ∧ a = .spindleUnknown) ∨
      (s.spindle = .empty ∧ a = .spindleEmpty)) : s.decideDamage = s.answer a := by
  rcases h with ⟨h, rfl⟩ | ⟨h, rfl⟩ | ⟨h, rfl⟩ <;> simp [State.decideDamage, h]

theorem charge_fits (o) : requestFits 4 o := by unfold requestFits; simp

theorem exec_charge_arrives (s : State) (o) (ha : s.RequestArrives) :
    exec (.charge o .inStep) s = .next ((s.handed 4 o).decideCharge o.toNat) := by
  simp only [exec, execCharge, kindCharge]; rw [State.latchRequest_arrives s ha _ _ _ _ (charge_fits o)]

theorem State.handed_answer (s : State) (k o a) :
    (s.handed k o).answer a = { s with link := s.link.answered k o a } := rfl

theorem State.handed_claim_answer (s : State) (kind operand k new c a) :
    ((s.handed kind operand).claim k new c).answer a =
      { s with image := (s.claim k new c).image, queue := (s.claim k new c).queue
               link := s.link.answered kind operand a } := by
  by_cases h : new = s.record k
  · rw [State.claim, State.claim, if_pos h, if_pos (show new = (s.handed kind operand).record k from h)]; rfl
  · rw [State.claim, State.claim, if_neg h, if_neg (show ¬ new = (s.handed kind operand).record k from h)]; rfl

theorem damage_fits : requestFits 5 0 := by unfold requestFits; simp

theorem exec_damage_arrives (s : State) (ha : s.RequestArrives) :
    exec (.damage 0 .inStep) s = .next ((s.handed 5 0).decideDamage) := by
  simp only [exec, execDamage, kindDamage]; rw [State.latchRequest_arrives s ha _ _ _ _ damage_fits]

theorem exec_probe_arrives (s : State) (o) (ha : s.RequestArrives) (h : o.toNat ≤ 2047) :
    exec (.probe o .inStep) s = .next ((s.handed 7 o).decideProbe o.toNat) := by
  simp only [exec, execProbe, kindProbe]; rw [State.latchRequest_arrives s ha _ _ _ _
      (by unfold requestFits; simp [h])]

theorem exec_call_arrives (s : State) (o) (ha : s.RequestArrives) (h1 : 1 ≤ o.toNat) (h : o.toNat ≤ 2047) :
    exec (.call o .inStep) s = .next ((s.handed 1 o).decideCall o.toNat) := by
  simp only [exec, execCall, kindCall]; rw [State.latchRequest_arrives s ha _ _ _ _
      (by unfold requestFits; simp [h1, h])]

theorem exec_putaway_arrives (s : State) (ha : s.RequestArrives) :
    exec (.putaway 0 .inStep) s = .next ((s.handed 6 0).decidePutaway) := by
  simp only [exec, execPutaway, kindPutaway]; rw [State.latchRequest_arrives s ha _ _ _ _
      (by unfold requestFits; simp)]

theorem exec_done_arrives (s : State) (o) (ha : s.RequestArrives) (h1 : 1 ≤ o.toNat) (h : o.toNat ≤ 15) :
    exec (.done o) s = .next ((s.handed 2 o).decideDone o.toNat) := by
  simp only [exec, execDone, kindDone]; rw [State.latchRequest_arrives s ha _ _ _ _
      (by unfold requestFits; simp [h1, h])]

theorem exec_abandon_arrives (s : State) (o) (ha : s.RequestArrives) (h1 : 1 ≤ o.toNat) (h : o.toNat ≤ 15) :
    exec (.abandon o) s = .next ((s.handed 3 o).decideAbandon o.toNat) := by
  simp only [exec, execAbandon, kindAbandon]; rw [State.latchRequest_arrives s ha _ _ _ _
      (by unfold requestFits; simp [h1, h])]

end Sys2Proof.Machine
end

