-- ==== Sys2Proof/Laws/Exchange.lean ====
section
/-! SUPPORT. The exchange claims as one rewriting of the named slots, and the waiting for their commits (R78–R93). -/

namespace Sys2Proof.Machine

set_option Elab.async false

/-- The exchange claims of a list of slots, in its order. -/
def State.rewrite (s : State) (ws : List (Slot × Record)) : State := ws.foldl (fun s w => s.claim w.1 w.2 .urgent) s

/-- All that the exchange claims do (R3, R78, R83, R86, R90): distinct slots, each with changed fields, are rewritten
as Rewritten says. -/
theorem State.rewritten_rewrite (ws : List (Slot × Record)) : ∀ (s : State), (ws.map Prod.fst).Nodup → (∀ k r, (k,
    r) ∈ ws → r ≠ s.record k) → s.Rewritten (State.rewrite s ws) ws := by
  induction ws with
  | nil => intro s _ _; exact ⟨by simp, fun _ _ => rfl, rfl⟩
  | cons w ws ih =>
    obtain ⟨k, r⟩ := w
    intro s hn hne
    simp only [List.map_cons, List.nodup_cons] at hn
    have hk : ∀ j r', (j, r') ∈ ws → j ≠ k := by
      rintro j r' hj rfl; exact hn.1 (List.mem_map.2 ⟨_, hj, rfl⟩)
    have hr : r ≠ s.record k := hne k r (by simp)
    obtain ⟨h1, h2, h3⟩ := ih (s.claim k r .urgent) hn.2 (fun j r' hj =>
        by rw [State.claim_record_other _ _ _ _ (hk j r' hj)]; exact hne j r' (by simp [hj]))
    refine ⟨?_, ?_, ?_⟩
    · intro j r' hj
      simp only [List.mem_cons, Prod.mk.injEq] at hj
      rcases hj with ⟨rfl, rfl⟩ | hj
      · show (State.rewrite (s.claim j r' .urgent) ws).slot j = _
        rw [h2 j hn.1, State.claim_slot_self, if_neg hr]
      · have := h1 j r' hj
        rw [State.claim_record_other _ _ _ _ (hk j r' hj), State.claim_slot_other _ _ _ _ (hk j r' hj)] at this
        exact this
    · intro j hj
      simp only [List.map_cons, List.mem_cons, not_or] at hj
      show (State.rewrite (s.claim k r .urgent) ws).slot j = _
      rw [h2 j hj.2, State.claim_slot_other _ _ _ _ hj.1]
    · show (State.rewrite (s.claim k r .urgent) ws).queue = _
      rw [h3, State.claim_queue, if_neg hr]; rfl

theorem State.Rewritten.congr {s t u : State} {ws} (h : s.Rewritten t ws) (hi : u.image = t.image) (hq :
    u.queue = t.queue) : s.Rewritten u ws :=
  ⟨fun k r hm => by rw [State.slot_eq _ _ hi]; exact h.named k r hm,
      fun k hm => by rw [State.slot_eq _ _ hi]; exact h.others k hm, by rw [hq]; exact h.queue⟩

theorem State.Rewritten.base {s s' t : State} {ws} (h : s'.Rewritten t ws) (hi : s'.image = s.image) (hq :
    s'.queue = s.queue) : s.Rewritten t ws :=
  ⟨fun k r hm => by rw [← State.slot_eq _ _ hi, ← State.record_eq _ _ hi]; exact h.named k r hm,
      fun k hm => by rw [← State.slot_eq _ _ hi]; exact h.others k hm, by rw [← hq]; exact h.queue⟩

/-- The open, the revert and the suspicion are one rewriting of the two ends. -/
theorem State.moveBoth_eq_rewrite (s : State) (m : Movement) (hd : m.distinct) (f g : Nat → Location) :
   (s.moveIncoming m f).moveOutgoing m g = State.rewrite s (s.movedFields m (fun p r => { r with location := f p })
       (fun p r => { r with location := g p })) := by
  unfold Movement.distinct Movement.named at hd
  cases hi : m.incoming with
  | none => cases ho : m.outgoing <;> simp [State.moveIncoming, State.moveOutgoing, State.movedFields, hi, ho,
      State.rewrite, State.relocate]
  | some a =>
    obtain ⟨i, p⟩ := a
    cases ho : m.outgoing with
    | none => simp [State.moveIncoming, State.moveOutgoing, State.movedFields, hi, ho, State.rewrite, State.relocate]
    | some b =>
      obtain ⟨k, q⟩ := b
      simp [hi, ho] at hd
      have : k ≠ i := fun e => hd e.symm
      simp [State.moveIncoming, State.moveOutgoing, State.movedFields, hi, ho, State.rewrite, State.relocate,
          State.claim_record_other _ _ _ _ this]

/-- The completed movement is one rewriting of the two ends. -/
theorem State.moveLand_eq_rewrite (s : State) (m : Movement) (hd : m.distinct) (f : Nat → Location) :
   (s.moveIncoming m f).landOutgoing m = State.rewrite s (s.movedFields m (fun p r => { r with location := f p })
       (fun p r => { r with location := .pocket p, home := p })) := by
  unfold Movement.distinct Movement.named at hd
  cases hi : m.incoming with
  | none => cases ho : m.outgoing <;> simp [State.moveIncoming, State.landOutgoing, State.movedFields, hi, ho,
      State.rewrite]
  | some a =>
    obtain ⟨i, p⟩ := a
    cases ho : m.outgoing with
    | none => simp [State.moveIncoming, State.landOutgoing, State.movedFields, hi, ho, State.rewrite, State.relocate]
    | some b =>
      obtain ⟨k, q⟩ := b
      simp [hi, ho] at hd
      have : k ≠ i := fun e => hd e.symm
      simp [State.moveIncoming, State.landOutgoing, State.movedFields, hi, ho, State.rewrite, State.relocate,
          State.claim_record_other _ _ _ _ this]

theorem State.movedFields_slots (s : State) (m : Movement) (f g) : (s.movedFields m f g).map Prod.fst = m.named := by
  simp [State.movedFields, Movement.named, Function.comp_def]

theorem State.mem_movedFields (s : State) (m : Movement) (f g) (k r) : (k, r) ∈ s.movedFields m f g ↔ (∃ p,
    m.incoming = some (k, p) ∧ r = f p (s.record k)) ∨ (∃ p, m.outgoing = some (k, p) ∧ r = g p (s.record k)) := by
  simp only [State.movedFields, List.mem_append, List.mem_map, Option.mem_toList, Prod.mk.injEq,
      Prod.exists]
  constructor
  · rintro (⟨a, b, h, rfl, rfl⟩ | ⟨a, b, h, rfl, rfl⟩)
    · exact .inl ⟨b, h, rfl⟩
    · exact .inr ⟨b, h, rfl⟩
  · rintro (⟨b, h, rfl⟩ | ⟨b, h, rfl⟩)
    · exact .inl ⟨k, b, h, rfl, rfl⟩
    · exact .inr ⟨k, b, h, rfl, rfl⟩

theorem State.rewritten_movedFields (s : State) (m : Movement) (hd : m.distinct) (f g)
   (h1 : ∀ k p, m.incoming = some (k, p) → f p (s.record k) ≠ s.record k) (h2 : ∀ k p, m.outgoing = some (k, p) →
       g p (s.record k) ≠ s.record k) :
   s.Rewritten (State.rewrite s (s.movedFields m f g)) (s.movedFields m f g) := by
  apply State.rewritten_rewrite
  · rw [State.movedFields_slots]; exact hd
  · intro k r h
    rcases (State.mem_movedFields _ _ _ _ _ _).1 h with ⟨p, a, rfl⟩ | ⟨p, a, rfl⟩
    · exact h1 k p a
    · exact h2 k p a

theorem Record.location_ne (r : Record) (l : Location) (h : r.location ≠ l) : ({ r with location := l } :
    Record) ≠ r := by
  intro e; apply h; rw [← e]

theorem Record.location_home_ne (r : Record) (l : Location) (a) (h : r.location ≠ l) :
    ({ r with location := l, home := a } : Record) ≠ r := by
  intro e; apply h; rw [← e]

theorem State.setConfirmFrom_fold_stamps (ks : List Slot) : ∀ (s : State) (k :
    Slot), (ks.foldl State.setConfirmFrom s).confirmFrom[k] =
    if k ∈ ks then some (s.slot k).stamp else s.confirmFrom[k] := by
  induction ks with
  | nil => simp
  | cons a l ih =>
    intro s k
    rw [List.foldl_cons, ih]
    have : (s.setConfirmFrom a).slot k = s.slot k := State.slot_eq _ _ rfl k
    rw [this]
    by_cases h : k ∈ l
    · simp [h]
    · simp only [h, if_false, List.mem_cons, or_false]
      by_cases hk : k = a
      · subst hk; simp [State.setConfirmFrom]
      · have : (a : Nat) ≠ k := fun e => hk (Fin.ext e.symm)
        simp [State.setConfirmFrom, this, hk]

theorem State.setConfirmFrom_fold_flight (ks : List Slot) : ∀ (s : State), (ks.foldl State.setConfirmFrom s).flight =
    s.flight.map (fun f =>
    if ∃ k ∈ ks, f.content.entry = .slot k then { f with confirmSet := true } else f) := by
  induction ks with
  | nil => intro s; simp
  | cons a l ih =>
    intro s
    rw [List.foldl_cons, ih]
    cases hf : s.flight with
    | none => simp [State.setConfirmFrom, hf]
    | some f =>
      simp only [State.setConfirmFrom, hf, Option.map_some, Option.some.injEq, List.mem_cons, exists_eq_or_imp]
      by_cases h : f.content.entry = .slot a
      · simp [h]
      · simp [h]

/-- R80, R156, R158: all that waiting for the commits of a movement does. -/
theorem State.awaited_awaitCommits (s t : State) (m : Movement) (w) (hf : t.flight = s.flight) (hc :
    t.confirmFrom = s.confirmFrom) : s.Awaited (t.awaitCommits m w) m w := by
  refine ⟨rfl, ?_, ?_⟩
  · intro k
    have : (t.awaitCommits m w).slot k = t.slot k := State.slot_eq _ _ (by simp) k
    rw [this]
    show (m.named.foldl State.setConfirmFrom t).confirmFrom[k] = _
    rw [State.setConfirmFrom_fold_stamps, hc]
  · show (m.named.foldl State.setConfirmFrom t).flight = _
    rw [State.setConfirmFrom_fold_flight, hf]

theorem State.Awaited.congr {s t u : State} {m w} (h : s.Awaited t m w) (hi : u.image = t.image) (h1 :
    u.confirmation = t.confirmation) (h2 : u.confirmFrom = t.confirmFrom) (h3 : u.flight = t.flight) :
    s.Awaited u m w :=
  ⟨by rw [h1]; exact h.record, fun k => by rw [State.slot_eq _ _ hi, h2]; exact h.stamps k,
      by rw [h3]; exact h.flight⟩

theorem State.movedFields_congr (s t : State) (h : t.image = s.image) (m f g) :
    t.movedFields m f g = s.movedFields m f g := by
  simp [State.movedFields, State.record_eq s t h]

/-- R74, R76, R78, R79, R80: all that an open does, for ends that are not in transit already. -/
theorem State.openExchange_spec (s : State) (kind operand) (m : Movement) (hd : m.distinct)
   (h1 : ∀ k p, m.incoming = some (k, p) → (s.record k).location ≠ .transitIn p) (h2 : ∀ k p, m.outgoing = some (k,
       p) → (s.record k).location ≠ .transitBack p) :
   ∃ t, (s.handed kind operand).openExchange m = t ∧
      s.Rewritten t (s.fieldsIfOpened m) ∧ t.spindle = .exchanging ∧
      t.exchange = .offered { tag := s.nextTag, movement := m } ∧
      t.nextTag = (if s.nextTag = 15 then 1 else s.nextTag + 1) ∧
      s.Awaited t m (.tag s.nextTag m.returnPocket) ∧
      t.link = s.link.opened kind operand (s.openingWord m) ∧
      t = { s with image := t.image, queue := t.queue, spindle := t.spindle, exchange := t.exchange,
                   nextTag := t.nextTag, confirmation := t.confirmation, confirmFrom := t.confirmFrom,
                   flight := t.flight, link := t.link } := by
  have hr : s.Rewritten (State.rewrite (s.handed kind operand) ((s.handed kind operand).fieldsIfOpened m))
      (s.fieldsIfOpened m) := by
    have := State.rewritten_movedFields (s.handed kind operand) m hd (fun p r => { r with location := .transitIn p })
        (fun p r => { r with location := .transitBack p })
      (fun k p h => Record.location_ne _ _ (h1 k p h)) (fun k p h => Record.location_ne _ _ (h2 k p h))
    have := State.Rewritten.base this (s := s) rfl rfl
    rw [State.movedFields_congr s (s.handed kind operand) rfl] at this
    rw [show (s.handed kind operand).fieldsIfOpened m =
        s.fieldsIfOpened m from State.movedFields_congr s (s.handed kind operand) rfl _ _ _]
    exact this
  have e : ((s.handed kind operand).moveIncoming m .transitIn).moveOutgoing m .transitBack =
      State.rewrite (s.handed kind operand) ((s.handed kind operand).fieldsIfOpened m) :=
      State.moveBoth_eq_rewrite _ m hd _ _
  refine ⟨_, rfl, ?_, ?_, ?_, ?_, ?_, ?_, ?_⟩
  · refine State.Rewritten.congr hr ?_ ?_ <;> simp [State.openExchange, e]
  · simp [State.openExchange]
  · simp [State.openExchange]; rfl
  · simp [State.openExchange, tagAfter]; rfl
  · unfold State.openExchange; exact State.awaited_awaitCommits _ _ _ _ (by simp; rfl) (by simp; rfl)
  · simp only [State.openExchange, State.awaitCommits_link]
    have : (s.handed kind operand).openingWord m = s.openingWord m := by
      cases m <;> rfl
    rw [this]; rfl
  · apply State.ext <;> simp <;> rfl

/-- R75: where the image has the incoming slot, by the state of the context. -/
theorem State.ExchangeSound.incoming_location {s : State} (h : s.ExchangeSound) {x} (hx : s.exchange.open? = some x)
    {k p} (hk : x.movement.incoming = some (k, p)) :
   (s.exchange.suspect? = none → (s.record k).location = .transitIn p) ∧ (s.exchange.suspect? ≠ none →
       (s.record k).location = .unknown (some p)) := by
  constructor
  · intro hs
    rw [h.movingIn]
    refine ⟨x, ?_, hk⟩
    cases he : s.exchange <;> simp_all [Exchange.open?, Exchange.moving?, Exchange.suspect?]
  · intro hs
    refine h.doubted x ?_ k p (.inl hk)
    cases he : s.exchange <;> simp_all [Exchange.open?, Exchange.moving?, Exchange.suspect?]

/-- R75: where the image has the outgoing slot, by the state of the context. -/
theorem State.ExchangeSound.outgoing_location {s : State} (h : s.ExchangeSound) {x} (hx : s.exchange.open? = some x)
    {k p} (hk : x.movement.outgoing = some (k, p)) :
   (s.exchange.suspect? = none → (s.record k).location = .transitBack p) ∧ (s.exchange.suspect? ≠ none →
       (s.record k).location = .unknown (some p)) := by
  constructor
  · intro hs
    rw [h.movingBack]
    refine ⟨x, ?_, hk⟩
    cases he : s.exchange <;> simp_all [Exchange.open?, Exchange.moving?, Exchange.suspect?]
  · intro hs
    refine h.doubted x ?_ k p (.inr hk)
    cases he : s.exchange <;> simp_all [Exchange.open?, Exchange.moving?, Exchange.suspect?]

theorem State.ExchangeSound.incoming_ne {s : State} (h : s.ExchangeSound) {x} (hx : s.exchange.open? = some x) {k p}
    (hk : x.movement.incoming = some (k, p)) :
  (s.record k).location = .transitIn p ∨ (s.record k).location = .unknown (some p) := by
  by_cases hs : s.exchange.suspect? = none
  · exact .inl ((State.ExchangeSound.incoming_location h hx hk).1 hs)
  · exact .inr ((State.ExchangeSound.incoming_location h hx hk).2 hs)

theorem State.ExchangeSound.outgoing_ne {s : State} (h : s.ExchangeSound) {x} (hx : s.exchange.open? = some x) {k p}
    (hk : x.movement.outgoing = some (k, p)) :
  (s.record k).location = .transitBack p ∨ (s.record k).location = .unknown (some p) := by
  by_cases hs : s.exchange.suspect? = none
  · exact .inl ((State.ExchangeSound.outgoing_location h hx hk).1 hs)
  · exact .inr ((State.ExchangeSound.outgoing_location h hx hk).2 hs)

/-- R86, R93: all that a completed movement does to the image and the queue. -/
theorem State.rewritten_completeMove (s : State) (h : s.ExchangeSound) {x} (hx : s.exchange.open? = some x) :
    s.Rewritten (s.completeMove x.movement) (s.fieldsIfMoved x.movement) := by
  have hd := h.distinct x hx
  have := State.rewritten_movedFields s x.movement hd (fun _ r => { r with location := .spindle }) (fun p r =>
      { r with location := .pocket p, home := p })
    (fun k p hk => Record.location_ne _ _
        (by rcases State.ExchangeSound.incoming_ne h hx hk with e | e <;> rw [e] <;> simp))
    (fun k p hk => Record.location_home_ne _ _ _
        (by rcases State.ExchangeSound.outgoing_ne h hx hk with e | e <;> rw [e] <;> simp))
  refine State.Rewritten.congr this ?_ ?_ <;> simp only [State.completeMove,
      State.moveLand_eq_rewrite s x.movement hd]

/-- R83: all that a revert does to the image and the queue. -/
theorem State.rewritten_revert (s : State) (h : s.ExchangeSound) {x} (hx : s.exchange.open? = some x) :
    s.Rewritten (s.revert x.movement) (s.fieldsIfReverted x.movement) := by
  have hd := h.distinct x hx
  have := State.rewritten_movedFields s x.movement hd (fun p r => { r with location := .pocket p }) (fun _ r =>
      { r with location := .spindle })
    (fun k p hk => Record.location_ne _ _
        (by rcases State.ExchangeSound.incoming_ne h hx hk with e | e <;> rw [e] <;> simp))
    (fun k p hk => Record.location_ne _ _
        (by rcases State.ExchangeSound.outgoing_ne h hx hk with e | e <;> rw [e] <;> simp))
  refine State.Rewritten.congr this ?_ ?_ <;> simp only [State.revert, State.moveBoth_eq_rewrite s x.movement hd]

/-- R90: all that a suspicion does to the image and the queue. -/
theorem State.rewritten_suspectExchange (s : State) (h : s.ExchangeSound) {x} (hx : s.exchange.open? = some x) (hs :
    s.exchange.suspect? = none) (c) : s.Rewritten (s.suspectExchange x c) (s.fieldsIfSuspected x.movement) := by
  have hd := h.distinct x hx
  have := State.rewritten_movedFields s x.movement hd (fun p r => { r with location := .unknown (some p) })
      (fun p r => { r with location := .unknown (some p) })
    (fun k p hk => Record.location_ne _ _ (by rw [(State.ExchangeSound.incoming_location h hx hk).1 hs]; simp))
    (fun k p hk => Record.location_ne _ _ (by rw [(State.ExchangeSound.outgoing_location h hx hk).1 hs]; simp))
  refine State.Rewritten.congr this ?_ ?_ <;> simp only [State.suspectExchange,
      State.moveBoth_eq_rewrite s x.movement hd]

theorem State.suspectExchange_attn (s : State) (h : s.ExchangeSound) {x} (hx : s.exchange.open? = some x) (hs :
    s.exchange.suspect? = none) (c) (k) (hk : k ∈ x.movement.named) : ((s.suspectExchange x c).slot k).attn = true :=
    by
  have hr := State.rewritten_suspectExchange s h hx hs c
  simp only [Movement.named, List.mem_map, List.mem_append, Option.mem_toList, Prod.exists, exists_and_right,
      exists_eq_right] at hk
  obtain ⟨p, hk | hk⟩ := hk
  · rw [hr.named k _ ((State.mem_movedFields _ _ _ _ _ _).2 (.inl ⟨p, hk, rfl⟩))]
    simp [entersAttention, (State.ExchangeSound.incoming_location h hx hk).1 hs, Location.isUnknown]
  · rw [hr.named k _ ((State.mem_movedFields _ _ _ _ _ _).2 (.inr ⟨p, hk, rfl⟩))]
    simp [entersAttention, (State.ExchangeSound.outgoing_location h hx hk).1 hs, Location.isUnknown]

theorem State.Rewritten.of_handed {s t : State} {kind operand} {m f g} (h :
    (s.handed kind operand).Rewritten t ((s.handed kind operand).movedFields m f g)) :
    s.Rewritten t (s.movedFields m f g) := by
  have := State.Rewritten.base h (s := s) rfl rfl
  rwa [State.movedFields_congr s (s.handed kind operand) rfl] at this

theorem State.ExchangeSound.handed {s : State} (kind operand) (h : s.ExchangeSound) :
    (s.handed kind operand).ExchangeSound :=
  ⟨h.distinct, h.occupied, h.movingIn, h.movingBack, h.doubted, h.exchanging, h.suspected⟩

theorem Movement.spindleAfterMove_eq (m : Movement) : (∀ i p out, m = .call i p out → m.spindleAfterMove = .holds i) ∧
      (∀ k r, m = .putaway k r → m.spindleAfterMove = .empty) := by
  constructor
  · rintro i p out rfl; rfl
  · rintro k r rfl; rfl

theorem Movement.spindleAfterRevert_eq (m : Movement) : (∀ k r, m.outgoing = some (k, r) →
    m.spindleAfterRevert = .holds k) ∧
      (m.outgoing = none → m.spindleAfterRevert = .empty) := by
  constructor
  · intro k r h; simp [Movement.spindleAfterRevert, h]
  · intro h; simp [Movement.spindleAfterRevert, h]

/-- R105: filling the withheld last position. -/
theorem Link.fill_eq_filled (l : Link) (a) (h : l.answers.getLast? = some none) : l.fill a = l.filled a := by
  simp [Link.fill, Link.filled, h]

/-- R80, R95, R107: outside RUNNING a confirmation record waits. -/
theorem State.releaseRecord_waits (s : State) (h : s.opState ≠ .running) : s.releaseRecord = s := if_neg h

end Sys2Proof.Machine
end

