-- ==== Sys2Proof/Laws/HostPort.lean ====
section
/-! SUPPORT. The host commands: what a taken command runs, and the tests of STORE and CONFIG_STORE over the records
(R71, R117–R126). -/

namespace Sys2Proof.Machine

set_option Elab.async false

theorem State.issue_not_served (s : State) (h : s.served = false) (k d) : s.issue k d = s := by
  simp [State.issue, h]

/-- R118: a command that needs RUNNING, in RUNNING. -/
theorem State.issue_whenRunning (s : State) (h : s.CommandTaken) (hr : s.opState = .running) (code) (b :
    State → State) :
   s.issue code (fun t => t.whenRunning b) = b { s with host := { s.host with command := code } } := by
  have := State.served_of_on s h.on h.released
  simp [State.issue, this, h.idle, State.whenRunning, hr]

/-- R117: a command taken in an operating state that serves it. -/
theorem State.issue_taken (s : State) (h : s.CommandTaken) (code) (b : State → State) :
   s.issue code b = b { s with host := { s.host with command := code } } := by
  have := State.served_of_on s h.on h.released
  simp [State.issue, this, h.idle]

/-- R118: a command that needs RUNNING, outside it. -/
theorem State.issue_whenRunning_refused (s : State) (h : s.CommandTaken) (hr : s.opState ≠ .running) (code) (b :
    State → State) :
   s.issue code (fun t => t.whenRunning b) = s.commandDone code .frozen := by
  have := State.served_of_on s h.on h.released
  simp [State.issue, this, h.idle, State.whenRunning, hr, State.complete, State.commandDone]

/-- The state in which the body of a taken command runs. -/
abbrev State.withCommand (s : State) (code : Byte) : State := { s with host := { s.host with command := code } }

theorem State.withCommand_complete (s : State) (code r) : (State.withCommand s code).complete r =
    s.commandDone code r := rfl

theorem State.ExchangeSound.withCommand {s : State} (c) (h : s.ExchangeSound) :
    (State.withCommand s c).ExchangeSound :=
  ⟨h.distinct, h.occupied, h.movingIn, h.movingBack, h.doubted, h.exchanging, h.suspected⟩

theorem State.argSlot?_eq_none (s : State) (h : 128 ≤ s.host.argSlot.toNat) (code) :
    (State.withCommand s code).argSlot? = none := by
  unfold State.argSlot?; rw [dif_neg]; show ¬ s.host.argSlot.toNat < 128; omega

theorem State.argSlot?_eq_some (s : State) (k : Slot) (h : s.host.argSlot.toNat = k.val) (code) :
    (State.withCommand s code).argSlot? = some k := by
  unfold State.argSlot?; rw [dif_pos (show s.host.argSlot.toNat < 128 by omega)]; congr 1; exact Fin.ext h

/-- R120: what a FETCH places in the work record. -/
theorem SlotState.workFields_copyOf (x : SlotState) : x.workFields.CopyOf x where
  directive := by simp only [SlotState.workFields]; unfold directiveFor; split <;> rfl
  condition := by simp only [SlotState.workFields]; cases x.fields.condition <;> rfl
  tool := rfl
  rank := rfl
  size := by simp only [SlotState.workFields]; cases x.fields.size <;> rfl
  mode := by simp only [SlotState.workFields]; cases x.fields.mode <;> rfl
  limit := rfl
  remaining := rfl
  warn := rfl
  charged := rfl
  locKind := by simp only [SlotState.workFields]; cases x.fields.location <;> rfl
  locPocket := by
    simp only [SlotState.workFields]
    rcases x.fields.location with _ | p | _ | _ | p | p | _ | p <;> rfl
  home := rfl
  hold := by
    simp only [SlotState.workFields]; unfold flagsByte; cases x.fields.hold <;> cases x.fields.measure <;> decide
  measure := by
    simp only [SlotState.workFields]; unfold flagsByte; cases x.fields.hold <;> cases x.fields.measure <;> decide
  attn := by
    simp only [SlotState.workFields, SlotState.indications, BitVec.getLsbD_append]; cases x.attn <;> simp
  dirty := by
    simp only [SlotState.workFields, SlotState.indications, BitVec.getLsbD_append]; cases x.dirty <;> simp
  storeFault := by
    simp only [SlotState.workFields, SlotState.indications, BitVec.getLsbD_append]; cases x.storeFault <;> simp

theorem State.drained_iff (s : State) : s.drained = true ↔ s.queue.urgent = [] ∧ s.queue.normal = [] ∧
    s.flight = none := by
  simp [State.drained, and_assoc]

/-- R28–R32, R124: the fields that a STORE offers, their ranges, and what is stored of them. -/
theorem WorkFields.offered_spec (w : WorkFields) (P : Nat) (r : Record) : 
   (∀ o, w.offered = some o → (o.inRange P r.location = true ↔ w.Accepted P r.location)) ∧ (∀ o, w.offered = some o →
       w.Accepted P r.location → o.stored r = w.toStore r) ∧ (w.offered = none → ¬ w.Accepted P r.location) := by
  obtain ⟨directive, condition, tool, rank, size, mode, limit, remaining, warn, charged, locKind, locPocket, home,
      flags, indic⟩ := w
  have d : directive.toNat = 0 ∨ directive.toNat = 1 ∨ directive.toNat = 2 ∨ 2 < directive.toNat := by omega
  have z : size.toNat = 0 ∨ size.toNat = 1 ∨ 1 < size.toNat := by omega
  have m : mode.toNat = 0 ∨ mode.toNat = 1 ∨ mode.toNat = 2 ∨ 2 < mode.toNat := by omega
  have l : locKind.toNat = 0 ∨ locKind.toNat = 1 ∨ locKind.toNat = 2 ∨ locKind.toNat = 3 ∨ locKind.toNat = 4 ∨
      locKind.toNat = 5 ∨ locKind.toNat = 6 ∨ 6 < locKind.toNat := by omega
  have dn : ∀ c : Byte, 2 < c.toNat → directiveOfCode c = none := by
      intro c h; unfold directiveOfCode; split <;> first | omega | rfl
  have zn : ∀ c : Byte, 1 < c.toNat → sizeOfCode c = none := by
      intro c h; unfold sizeOfCode; split <;> first | omega | rfl
  have mn : ∀ c : Byte, 2 < c.toNat → modeOfCode c = none := by
      intro c h; unfold modeOfCode; split <;> first | omega | rfl
  have ln : ∀ c p : Byte, 6 < c.toNat → locationOfCodes c p = none := by
      intro c p h; unfold locationOfCodes; split <;> first | omega | rfl
  have ln0 : ∀ c p : Byte, c.toNat = 0 → locationOfCodes c p = none := by
      intro c p h; unfold locationOfCodes; split <;> first | omega | rfl
  by_cases hd : 2 < directive.toNat
  · simp [WorkFields.offered, dn _ hd, WorkFields.Accepted]; omega
  by_cases hz : 1 < size.toNat
  · simp [WorkFields.offered, zn _ hz, WorkFields.Accepted]; omega
  by_cases hm : 2 < mode.toNat
  · simp [WorkFields.offered, mn _ hm, WorkFields.Accepted]; omega
  by_cases hl : 6 < locKind.toNat
  · simp [WorkFields.offered, ln _ _ hl, WorkFields.Accepted]; omega
  by_cases hl0 : locKind.toNat = 0
  · simp [WorkFields.offered, ln0 _ _ hl0, WorkFields.Accepted]; omega
  have d' : directive.toNat = 0 ∨ directive.toNat = 1 ∨ directive.toNat = 2 := by omega
  have z' : size.toNat = 0 ∨ size.toNat = 1 := by omega
  have m' : mode.toNat = 0 ∨ mode.toNat = 1 ∨ mode.toNat = 2 := by omega
  have l' : locKind.toNat = 1 ∨ locKind.toNat = 2 ∨ locKind.toNat = 3 ∨ locKind.toNat = 4 ∨ locKind.toNat = 5 ∨
      locKind.toNat = 6 := by omega
  clear d z m l dn zn mn ln ln0
  have hD : ∃ D, directiveOfCode directive = some D ∧ (D = .renew ↔ directive.toNat = 1) ∧ (D = .retire ↔
      directive.toNat = 2) := by
    rcases d' with h | h | h <;> simp [directiveOfCode, h]
  have hZ : sizeOfCode size = some (if size.toNat = 0 then .normal else .large) := by
    rcases z' with h | h <;> simp [sizeOfCode, h]
  have hM : modeOfCode mode = some (if mode.toNat = 0 then .uncounted else if mode.toNat = 1 then .count else .time)
      := by
    rcases m' with h | h | h <;> simp [modeOfCode, h]
  have hMu : (if mode.toNat = 0 then LifeMode.uncounted else if mode.toNat = 1 then .count else .time) = .uncounted ↔
      mode.toNat = 0 := by
    rcases m' with h | h | h <;> simp [h]
  have hL : ∃ L, locationOfCodes locKind locPocket = some L ∧ L = (if locKind.toNat = 1 then .pocket locPocket.toNat
      else if locKind.toNat = 2 then .spindle
      else if locKind.toNat = 3 then .out
      else if locKind.toNat = 4 then .transitIn locPocket.toNat
      else if locKind.toNat = 5 then .transitBack locPocket.toNat
      else .unknown (if locPocket.toNat = 0 then none else some locPocket.toNat) :
          Location) ∧ (locationAccepted P r.location L = true ↔ 
      ((locKind.toNat = 1 ∧ 1 ≤ locPocket.toNat ∧ locPocket.toNat ≤ P) ∨
      locKind.toNat = 2 ∨ locKind.toNat = 3 ∨
      ((locKind.toNat = 4 ∨ locKind.toNat = 5) ∧ r.location.kindCode = locKind.toNat ∧
        r.location.pocketPart = some locPocket.toNat) ∨
      (locKind.toNat = 6 ∧ locPocket.toNat ≤ P))) := by
    rcases l' with h | h | h | h | h | h <;> simp only [locationOfCodes, h] <;> refine ⟨_, rfl, by simp, ?_⟩
    · simp [locationAccepted]
    · simp [locationAccepted]
    · simp [locationAccepted]
    · cases hr : r.location <;> simp [locationAccepted, Location.kindCode, Location.pocketPart] <;> omega
    · cases hr : r.location <;> simp [locationAccepted, Location.kindCode, Location.pocketPart] <;> omega
    · by_cases hp : locPocket.toNat = 0
      · simp [locationAccepted, hp]
      · simp [locationAccepted, hp]; omega
  obtain ⟨D, hD1, hD2, hD3⟩ := hD
  obtain ⟨L, hL1, hL2, hL3⟩ := hL
  have ho : WorkFields.offered ⟨directive, condition, tool, rank, size, mode, limit, remaining, warn, charged,
      locKind, locPocket, home, flags, indic⟩ = some
     { directive := D, size := if size.toNat = 0 then .normal else .large,
       mode := if mode.toNat = 0 then .uncounted else if mode.toNat = 1 then .count else .time, location := L, tool :=
         tool.toNat, rank := rank.toNat, limit := limit.toNat, remaining := remaining.toNat, warn :=
         warn.toNat, home := home.toNat, hold := flags.getLsbD 0, measure := flags.getLsbD 1 } := by
    simp [WorkFields.offered, hD1, hZ, hM, hL1]
  rw [ho]
  refine ⟨?_, ?_, by simp⟩
  · intro o h; cases h
    simp only [Offered.inRange, Bool.and_eq_true, decide_eq_true_eq, hL3, WorkFields.Accepted, and_assoc,
        Bool.or_eq_true, bne_iff_ne, beq_iff_eq, ne_eq, hD2]
    constructor
    · rintro ⟨a, b, c, d, e, f, g, h, i, j⟩
      exact ⟨a, b, c, d, Nat.le_of_not_lt hz, Nat.le_of_not_lt hm, Nat.le_of_not_lt hd, e, f, g, fun hh =>
          h.resolve_left (fun hn => hn hh), j, i⟩
    · rintro ⟨a, b, c, d, _, _, _, e, f, g, h, j, i⟩
      exact ⟨a, b, c, d, e, f, g, (Decidable.em (directive.toNat = 1)).elim (fun hh => .inr (h hh)) .inl, i, j⟩
  · intro o h ha; cases h
    simp only [Offered.stored, WorkFields.toStore, WorkFields.location, Record.mk.injEq, hL2, and_true, hD2]
    simp only [Offered.condition]
    cases D
    · have h1 : directive.toNat ≠ 1 := fun h => by simp [h] at hD2
      have h2 : directive.toNat ≠ 2 := fun h => by simp [h] at hD3
      simp only [h1, h2, if_false, ne_eq, hMu]
    · have h1 : directive.toNat = 1 := hD2.1 rfl
      simp [h1]
    · have h1 : directive.toNat = 2 := hD3.1 rfl
      simp [h1]

theorem State.rankTaken_iff (s : State) (k r) : s.rankTaken k r = true ↔ s.RankShared k r := by
  simp [State.rankTaken, State.RankShared, mem_slots, Record.occupied, and_assoc]

theorem Exchange.names_iff (s : State) (k) : s.exchange.names k = true ↔ s.Named k := by
  unfold Exchange.names State.Named; cases s.exchange.open? <;> simp

theorem State.storeLocked_iff (s : State) (k r) : (s.exchange.names k && lockedFieldChanges (s.record k) r) = true ↔
    s.StoreLocked k r := by
  simp [State.StoreLocked, Exchange.names_iff, lockedFieldChanges, or_assoc]

theorem State.placementRefused_iff (s : State) (k r) : s.placementRefused k r = true ↔ s.StoreConflicts k r := by
  unfold State.placementRefused State.StoreConflicts
  cases h : r.location <;> simp

theorem State.spindleRefused_iff (s : State) (k r) : s.spindleRefused k r = true ↔ s.StoreSpindleTaken k r := by
  unfold State.spindleRefused State.StoreSpindleTaken
  rw [Bool.and_eq_true, decide_eq_true_eq]
  refine and_congr Iff.rfl ?_
  cases h : s.spindle <;> simp
  cases hx : s.exchange <;> simp [Exchange.suspect?]

theorem State.storeStale_iff (s : State) (k) (h : s.WorkOn k) : s.storeStale = true ↔ s.Stale k := by
  unfold State.storeStale State.Stale
  rcases h with ⟨t, h⟩ | h <;> simp [h, Record.occupied]

theorem State.WorkOn.slot (s : State) (k) (h : s.WorkOn k) : s.host.workState.slot? = some k := by
  rcases h with ⟨t, h⟩ | h <;> simp [h, WorkState.slot?]

/-- R124–R126: the verdict of steps 4 to 8 of STORE. -/
theorem State.judgeStore_spec (s : State) (k) : 
   (¬ s.host.work.Accepted s.pockets (s.record k).location → s.judgeStore k = .error .range) ∧
   (s.host.work.Accepted s.pockets (s.record k).location → s.judgeStore k = 
      let new := s.host.work.toStore (s.record k)
      if s.rankTaken k new then .error .rankTaken
    else if s.exchange.names k && lockedFieldChanges (s.record k) new then .error .locked
    else if s.placementRefused k new then .error .pocketConflict
    else if s.spindleRefused k new then .error .spindleTaken
    else .ok new) := by
  obtain ⟨h1, h2, h3⟩ := WorkFields.offered_spec s.host.work s.pockets (s.record k)
  unfold State.judgeStore
  refine ⟨fun ha => ?_, fun ha => ?_⟩
  · cases ho : s.host.work.offered with
    | none => rfl
    | some o =>
      have : o.inRange s.pockets (s.record k).location = false := by
        rw [← Bool.not_eq_true, h1 o ho]; exact ha
      simp [this]
  · cases ho : s.host.work.offered with
    | none => exact absurd ha (h3 ho)
    | some o =>
      have := (h1 o ho).2 ha
      simp only [this, h2 o ho ha]; simp

theorem policyOfCode_eq (b : Byte) : policyOfCode b = if b.toNat ≤ 1 then some (if b.toNat = 0 then .fixed else .swap)
    else none := by
  have : b.toNat = 0 ∨ b.toNat = 1 ∨ 1 < b.toNat := by omega
  unfold policyOfCode; split
  · rename_i h; simp [h]
  · rename_i h; simp [h]
  · rename_i h0 h1; rw [if_neg]; intro h; rcases this with e | e | e
    · exact h0 e
    · exact h1 e
    · omega

/-- R71: the staged values in their ranges. -/
theorem HostPort.staged_iff (h : HostPort) (c) : h.staged = some c ↔ h.Stages c := by
  unfold HostPort.staged HostPort.Stages
  rw [policyOfCode_eq]
  by_cases hp : h.stagePolicy.toNat ≤ 1
  · simp only [hp, if_true, Option.bind_eq_bind, Option.bind_some]
    by_cases hh : Config.pocketsMin ≤ h.stageP.toNat ∧ h.stageP.toNat ≤ Config.pocketsMax ∧ 1 ≤ h.stageTimeout.toNat
    · rw [if_pos hh]; unfold Config.pocketsMin Config.pocketsMax at hh; simp only [Option.some.injEq, eq_comm (a :=
        c)]; tauto
    · rw [if_neg hh]; unfold Config.pocketsMin Config.pocketsMax at hh; simp; omega
  · simp only [hp, if_false]; simp

theorem State.beyond_iff (s : State) (P) : s.beyond P = true ↔ s.BeyondRing P := by
  unfold State.beyond State.BeyondRing
  simp only [List.any_eq_true, mem_slots, true_and, Bool.and_eq_true, Record.occupied_iff, Bool.or_eq_true,
      decide_eq_true_eq]
  refine exists_congr fun k => and_congr Iff.rfl (or_congr ?_ Iff.rfl)
  cases (s.record k).location.pocketPart <;> simp

/-- R71, case 4. -/
theorem State.crowded_iff (s : State) (P) : s.crowded P = true ↔ s.Crowded P := by
  unfold State.crowded State.Crowded
  have st : ∀ (l : Location) p, l.standing = some p ↔ (l = .pocket p ∨ l = .unknown (some p)) := by
    intro l p; cases l <;> simp [Location.standing]
  have on : ∀ k q, s.otherNames k q = true ↔ ∃ j, j ≠ k ∧ (s.record j).condition ≠ .vacant ∧
      (s.record j).location.pocketPart = some q := by
    intro k q; simp [State.otherNames, mem_slots, Record.occupied, and_assoc]
  simp only [List.any_eq_true, mem_slots, true_and, Bool.and_eq_true, Record.occupied_iff, beq_iff_eq]
  constructor
  · rintro ⟨k, ⟨a, b⟩, c⟩
    cases hs : (s.record k).location.standing with
    | none => simp [hs] at c
    | some p =>
      simp only [hs, Bool.or_eq_true, on] at c
      rcases c with ⟨j, h1, h2, h3⟩ | ⟨j, h1, h2, h3⟩
      · exact ⟨k, j, p, h1.symm, a, h2, b, (st _ _).1 hs, .inl h3⟩
      · exact ⟨k, j, p, h1.symm, a, h2, b, (st _ _).1 hs, .inr h3⟩
  · rintro ⟨k, j, p, h1, a, h2, b, hs, h3⟩
    refine ⟨k, ⟨a, b⟩, ?_⟩
    rw [(st _ _).2 hs]
    simp only [Bool.or_eq_true, on]
    exact h3.imp (fun h => ⟨j, h1.symm, h2, h⟩) (fun h => ⟨j, h1.symm, h2, h⟩)

theorem State.repairDuplicate_iff (s : State) (k) : s.repairDuplicate k = true ↔ ∃ j, j < k ∧
    (s.record j).condition ≠ .vacant ∧ (s.record j).tool = (s.record k).tool ∧
      (s.record j).rank = (s.record k).rank := by
  simp [State.repairDuplicate, mem_slots, Record.occupied, and_assoc]

/-! ### Addresses of the host bus -/

/-- R135: the parts of a flag-space address. -/
theorem flag_address : ∀ (flag : BitVec 2) (v : Bool) (k : Slot),
    let a : BitVec 11 := 1#1 ++ flag ++ BitVec.ofBool v ++ BitVec.ofNat 7 k.val
    a.getLsbD 10 = true ∧ flagNamed (a.extractLsb' 0 10) = flagOfCode flag ∧ slotNamed (a.extractLsb' 0 10) = k ∧
      (a.extractLsb' 0 10).getLsbD 7 = v := by
  decide +kernel

/-- R135: a write with A10 at 1 is the set or the clear of the flag and slot that its address names. -/
theorem hostWrite_flag (flag : BitVec 2) (v : Bool) (k : Slot) (d : Byte) :
    hostWrite (1#1 ++ flag ++ BitVec.ofBool v ++ BitVec.ofNat 7 k.val) d =
      match flagOfCode flag, v with
      | .hold, true => .holdSet k
      | .hold, false => .holdClear k
      | .measure, true => .measureSet k
      | .measure, false => .measureClear k
      | .attn, true => .attnSet k
      | .attn, false => .attnClear k
      | .dirty, v => .dirtyWrite k v := by
  obtain ⟨h1, h2, h3, h4⟩ := flag_address flag v k
  cases hf : flagOfCode flag <;> cases v <;>
    simp only [hostWrite, if_true, flagWrite, h1, h2, h3, h4, hf]

/-- R113: the parts of a window address on the host bus. -/
theorem window_address : ∀ a : BitVec 10, (0#1 ++ a : BitVec 11).getLsbD 10 = false ∧
    (0#1 ++ a : BitVec 11).extractLsb' 0 10 = a := by
  decide +kernel

/-- R113: a write with A10 at 0 is a write of the register window. -/
theorem hostWrite_window (a : BitVec 10) (d : Byte) : hostWrite (0#1 ++ a) d = windowWrite a d := by
  obtain ⟨h1, h2⟩ := window_address a
  unfold hostWrite
  rw [h1, h2]
  rfl

/-- R113: a read with A10 at 0 is a read of the register window. -/
theorem State.readHost_window (s : State) (a : BitVec 10) : s.readHost (0#1 ++ a) = s.readWindow a := by
  obtain ⟨h1, h2⟩ := window_address a
  unfold State.readHost
  rw [h1, h2]
  rfl

end Sys2Proof.Machine
end

