-- ==== Sys2Proof/Laws/PerInstr.lean ====
section
/-! SUPPORT. Properties of commands as syntax, one lemma per constructor. -/

namespace Sys2Proof.Laws.OnePort

open Sys2Proof.Machine

set_option Elab.async false

/-- A command enters the part by one port only: a request word over the changer link, a code written to COMMAND, or a
plain write of the host bus (spec/00, the ports; R98, R113, R117, R136). -/
def Statement (i : Instr) : Prop :=
  ((request? i).isSome = true → hostCode? i = none ∧ plainHostWrite i = false) ∧
    ((hostCode? i).isSome = true → plainHostWrite i = false ∧ strobeEdge i = false) ∧
    (plainHostWrite i = true → strobeEdge i = false)

theorem call (operand : BitVec 12) (take : Timing) : Statement (.call operand take) :=
  by simp [Statement, request?, hostCode?, plainHostWrite, strobeEdge]
theorem putaway (operand : BitVec 12) (take : Timing) : Statement (.putaway operand take) :=
  by simp [Statement, request?, hostCode?, plainHostWrite, strobeEdge]
theorem done (operand : BitVec 12) : Statement (.done operand) :=
  by simp [Statement, request?, hostCode?, plainHostWrite, strobeEdge]
theorem abandon (operand : BitVec 12) : Statement (.abandon operand) :=
  by simp [Statement, request?, hostCode?, plainHostWrite, strobeEdge]
theorem charge (operand : BitVec 12) (take : Timing) : Statement (.charge operand take) :=
  by simp [Statement, request?, hostCode?, plainHostWrite, strobeEdge]
theorem damage (operand : BitVec 12) (take : Timing) : Statement (.damage operand take) :=
  by simp [Statement, request?, hostCode?, plainHostWrite, strobeEdge]
theorem probe (operand : BitVec 12) (take : Timing) : Statement (.probe operand take) :=
  by simp [Statement, request?, hostCode?, plainHostWrite, strobeEdge]
theorem unknownRequest (kind : BitVec 4) (operand : BitVec 12) : Statement (.unknownRequest kind operand) :=
  by simp [Statement, request?, hostCode?, plainHostWrite, strobeEdge]
theorem strobeWhileBusy : Statement .strobeWhileBusy :=
  by simp [Statement, request?, hostCode?, plainHostWrite, strobeEdge]
theorem answerTake : Statement .answerTake :=
  by simp [Statement, request?, hostCode?, plainHostWrite, strobeEdge]
theorem takeWithoutAnswer : Statement .takeWithoutAnswer :=
  by simp [Statement, request?, hostCode?, plainHostWrite, strobeEdge]
theorem answerRelease : Statement .answerRelease :=
  by simp [Statement, request?, hostCode?, plainHostWrite, strobeEdge]
theorem exchangeTimerExpiry : Statement .exchangeTimerExpiry :=
  by simp [Statement, request?, hostCode?, plainHostWrite, strobeEdge]
theorem reset : Statement .reset :=
  by simp [Statement, request?, hostCode?, plainHostWrite, strobeEdge]
theorem fetch : Statement .fetch :=
  by simp [Statement, request?, hostCode?, plainHostWrite, strobeEdge]
theorem new : Statement .new :=
  by simp [Statement, request?, hostCode?, plainHostWrite, strobeEdge]
theorem store : Statement .store :=
  by simp [Statement, request?, hostCode?, plainHostWrite, strobeEdge]
theorem discard : Statement .discard :=
  by simp [Statement, request?, hostCode?, plainHostWrite, strobeEdge]
theorem release : Statement .release :=
  by simp [Statement, request?, hostCode?, plainHostWrite, strobeEdge]
theorem locate : Statement .locate :=
  by simp [Statement, request?, hostCode?, plainHostWrite, strobeEdge]
theorem resolveMoved : Statement .resolveMoved :=
  by simp [Statement, request?, hostCode?, plainHostWrite, strobeEdge]
theorem resolveNotMoved : Statement .resolveNotMoved :=
  by simp [Statement, request?, hostCode?, plainHostWrite, strobeEdge]
theorem declareSpindleEmpty : Statement .declareSpindleEmpty :=
  by simp [Statement, request?, hostCode?, plainHostWrite, strobeEdge]
theorem retryStore : Statement .retryStore :=
  by simp [Statement, request?, hostCode?, plainHostWrite, strobeEdge]
theorem flush : Statement .flush :=
  by simp [Statement, request?, hostCode?, plainHostWrite, strobeEdge]
theorem flushComplete : Statement .flushComplete :=
  by simp [Statement, request?, hostCode?, plainHostWrite, strobeEdge]
theorem configStore : Statement .configStore :=
  by simp [Statement, request?, hostCode?, plainHostWrite, strobeEdge]
theorem unknownCommand (code : Byte) : Statement (.unknownCommand code) :=
  by simp [Statement, request?, hostCode?, plainHostWrite, strobeEdge]
theorem statusWrite (data : Byte) : Statement (.statusWrite data) :=
  by simp [Statement, request?, hostCode?, plainHostWrite, strobeEdge]
theorem intPendingWrite (data : Byte) : Statement (.intPendingWrite data) :=
  by simp [Statement, request?, hostCode?, plainHostWrite, strobeEdge]
theorem intEnableWrite (data : Byte) : Statement (.intEnableWrite data) :=
  by simp [Statement, request?, hostCode?, plainHostWrite, strobeEdge]
theorem registerWrite (address : BitVec 10) (data : Byte) : Statement (.registerWrite address data) :=
  by simp [Statement, request?, hostCode?, plainHostWrite, strobeEdge]
theorem holdSet (slot : Slot) : Statement (.holdSet slot) :=
  by simp [Statement, request?, hostCode?, plainHostWrite, strobeEdge]
theorem holdClear (slot : Slot) : Statement (.holdClear slot) :=
  by simp [Statement, request?, hostCode?, plainHostWrite, strobeEdge]
theorem measureSet (slot : Slot) : Statement (.measureSet slot) :=
  by simp [Statement, request?, hostCode?, plainHostWrite, strobeEdge]
theorem measureClear (slot : Slot) : Statement (.measureClear slot) :=
  by simp [Statement, request?, hostCode?, plainHostWrite, strobeEdge]
theorem attnSet (slot : Slot) : Statement (.attnSet slot) :=
  by simp [Statement, request?, hostCode?, plainHostWrite, strobeEdge]
theorem attnClear (slot : Slot) : Statement (.attnClear slot) :=
  by simp [Statement, request?, hostCode?, plainHostWrite, strobeEdge]
theorem dirtyWrite (slot : Slot) (value : Bool) : Statement (.dirtyWrite slot value) :=
  by simp [Statement, request?, hostCode?, plainHostWrite, strobeEdge]
theorem commitStart : Statement .commitStart :=
  by simp [Statement, request?, hostCode?, plainHostWrite, strobeEdge]
theorem commitAttempt (verify : Verify) (notice : Timing) : Statement (.commitAttempt verify notice) :=
  by simp [Statement, request?, hostCode?, plainHostWrite, strobeEdge]
theorem vccRise : Statement .vccRise :=
  by simp [Statement, request?, hostCode?, plainHostWrite, strobeEdge]
theorem vccFall : Statement .vccFall :=
  by simp [Statement, request?, hostCode?, plainHostWrite, strobeEdge]
theorem powerOff : Statement .powerOff :=
  by simp [Statement, request?, hostCode?, plainHostWrite, strobeEdge]
theorem settleIntervalEnd : Statement .settleIntervalEnd :=
  by simp [Statement, request?, hostCode?, plainHostWrite, strobeEdge]
theorem scanComplete : Statement .scanComplete :=
  by simp [Statement, request?, hostCode?, plainHostWrite, strobeEdge]
theorem rqstbLeadingEdge : Statement .rqstbLeadingEdge :=
  by simp [Statement, request?, hostCode?, plainHostWrite, strobeEdge]
theorem antakeLeadingEdge : Statement .antakeLeadingEdge :=
  by simp [Statement, request?, hostCode?, plainHostWrite, strobeEdge]
theorem resetRelease : Statement .resetRelease :=
  by simp [Statement, request?, hostCode?, plainHostWrite, strobeEdge]
theorem requestTakeByBlock : Statement .requestTakeByBlock :=
  by simp [Statement, request?, hostCode?, plainHostWrite, strobeEdge]

end Sys2Proof.Laws.OnePort
end

