-- ==== Sys2Proof/Laws/Preservation.lean ====
section
/-! SUPPORT. How an invariant of the state is shown to be kept by every command: operation by operation. -/

namespace Sys2Proof.Machine

set_option Elab.async false

/-- An invariant that every shared operation keeps, in the states in which a command runs it. -/
structure Keeps (Q : State → Prop) : Prop where
  pending : ∀ s x, Q s → Q { s with pending := x }
  link : ∀ s x, Q s → Q { s with link := x }
  lostAnswer : ∀ s x, Q s → Q { s with lostAnswer := x }
  host : ∀ s x, Q s → Q { s with host := x }
  resetLow : ∀ s x, Q s → Q { s with resetLow := x }
  decideCall : ∀ s n, Q s → s.opState = .running → Q (s.decideCall n)
  decidePutaway : ∀ s, Q s → s.opState = .running → Q s.decidePutaway
  decideDone : ∀ s n, Q s → s.opState = .running → Q (s.decideDone n)
  decideAbandon : ∀ s n, Q s → s.opState = .running → Q (s.decideAbandon n)
  decideCharge : ∀ s n, Q s → s.opState = .running → Q (s.decideCharge n)
  decideDamage : ∀ s, Q s → s.opState = .running → Q s.decideDamage
  reportTake : ∀ s, Q s → Q s.reportTake
  releaseRecord : ∀ s, Q s → Q s.releaseRecord
  expireTimer : ∀ s, Q s → Q s.expireTimer
  resetExchange : ∀ s, Q s → s.opState ≠ .off → Q s.resetExchange
  applyStore : ∀ s k new, Q s → s.opState = .running → s.host.workState.slot? = some k → s.judgeStore k = .ok new →
      Q (s.applyStore k new)
  vacate : ∀ s k, Q s → s.opState = .running → (s.record k).occupied = true →
      (((s.record k).location == .out || (s.record k).location.isUnknown) = true) → s.exchange.names k = false →
      Q ((s.claim k Record.vacant .normal).setAttn k false)
  completeMove : ∀ s x c, Q s → s.opState = .running → s.exchange = .suspect x c → Q (s.completeMove x.movement)
  revert : ∀ s x c, Q s → s.opState = .running → s.exchange = .suspect x c → Q (s.revert x.movement)
  spindleEmpty : ∀ s, Q s → s.opState = .running → (s.spindle = .unknown ∧ !s.exchange.isSuspect ∧
      s.spindleSlot = none) → Q { s with spindle := .empty }
  retry : ∀ s k, Q s → s.opState = .running → (s.slot k).storeFault = true → Q (s.retry k)
  applyConfig : ∀ s c, Q s → s.opState = .running → s.host.staged = some c →
      (s.beyond c.pockets || s.crowded c.pockets) = false → s.exchange = .idle → Q (s.applyConfig c)
  hold : ∀ s k v, Q s → s.opState = .running → (s.record k).occupied = true →
      (v || !s.repairDuplicate k) = true →
      Q (s.claim k { s.record k with hold := v } .normal)
  measure : ∀ s k v, Q s → s.opState = .running → (s.record k).occupied = true →
      Q (s.claim k { s.record k with measure := v } .normal)
  setAttn : ∀ s k v, Q s → Q (s.setAttn k v)
  startFlight : ∀ s, Q s → Q s.startFlight
  endAttempt : ∀ s v, Q s → Q (s.endAttempt v)
  supplyRises : ∀ s, Q s → Q s.supplyRises
  supplyFalls : ∀ s, Q s → Q s.supplyFalls
  losePower : ∀ s, Q s → Q s.losePower
  endSettle : ∀ s, Q s → Q s.endSettle

variable {Q : State → Prop}

theorem Keeps.complete (h : Keeps Q) (s r) (hs : Q s) : Q (s.complete r) := h.host s _ hs

theorem Keeps.answer (h : Keeps Q) (s a) (hs : Q s) : Q (s.answer a) := h.link s _ hs

theorem Keeps.latchRequest (h : Keeps Q) (s k o t d) (hd : ∀ u : State, Q u → u.opState = .running → Q (d u)) (hs :
    Q s) : Q (s.latchRequest k o t d) := by
  unfold State.latchRequest
  split
  · dsimp only; split
    · exact h.link _ _ hs
    · rename_i hn
      split
      · have hr : s.opState = .running := by
          rename_i hserved _; unfold OpState.linkAnswer at hn; split at hn <;> simp_all [State.served]
        cases t
        · exact hd _ (h.link _ _ hs) hr
        · exact h.link _ _ hs
      · exact h.link _ _ hs
  · exact hs

theorem Keeps.decideRequest (h : Keeps Q) (s k o) (hs : Q s) (hr : s.opState = .running) : Q (s.decideRequest k o) :=
    by
  unfold State.decideRequest
  split <;>
    first
    | exact h.decideCall _ _ hs hr
    | exact h.decideDone _ _ hs hr
    | exact h.decideAbandon _ _ hs hr
    | exact h.decideCharge _ _ hs hr
    | exact h.decideDamage _ hs hr
    | exact h.decidePutaway _ hs hr
    | exact h.answer _ _ hs
    | exact hs

theorem Keeps.takeHandedOn (h : Keeps Q) (s) (hs : Q s) : Q s.takeHandedOn := by
  unfold State.takeHandedOn
  split
  · split
    · split
      · exact h.answer _ _ hs
      · rename_i hn; exact h.decideRequest _ _ _ hs (by by_contra hc; exact hn (.inl hc))
    · exact hs
  · exact hs

theorem Keeps.issue (h : Keeps Q) (s code b) (hb : ∀ u, Q u → Q (b u)) (hs : Q s) : Q (s.issue code b) := by
  unfold State.issue; split
  · split
    · exact h.host _ _ hs
    · exact hb _ (h.host _ _ hs)
  · exact hs

theorem Keeps.whenRunning (h : Keeps Q) (b) (hb : ∀ u : State, Q u → u.opState = .running → Q (b u)) (s) (hs : Q s) :
    Q (s.whenRunning b) := by
  unfold State.whenRunning; split
  · exact hb _ hs (by assumption)
  · exact h.complete _ _ hs

theorem Keeps.takeFetch (h : Keeps Q) (s) (hs : Q s) : Q s.takeFetch := by
  unfold State.takeFetch; (repeat' split) <;> first | exact h.complete _ _ hs | exact h.complete _ _ (h.host _ _ hs)

theorem Keeps.takeNew (h : Keeps Q) (s) (hs : Q s) : Q s.takeNew := by
  unfold State.takeNew; (repeat' split) <;> first | exact h.complete _ _ hs | exact h.complete _ _ (h.host _ _ hs)

theorem Keeps.takeDiscard (h : Keeps Q) (s) (hs : Q s) : Q s.takeDiscard := h.complete _ _ (h.host _ _ hs)

theorem Keeps.takeLocate (h : Keeps Q) (s) (hs : Q s) : Q s.takeLocate := by
  unfold State.takeLocate; dsimp only; (repeat' split) <;> exact h.complete _ _ (h.host _ _ hs)

theorem Keeps.takeFlush (h : Keeps Q) (s) (hs : Q s) : Q s.takeFlush := by
  unfold State.takeFlush; split <;> exact h.host _ _ hs

theorem Keeps.completeFlush (h : Keeps Q) (s) (hs : Q s) : Q s.completeFlush := by
  unfold State.completeFlush; split
  · exact h.complete _ _ (h.host _ _ hs)
  · exact hs

theorem Keeps.takeStore (h : Keeps Q) (s) (hs : Q s) : Q s.takeStore := by
  unfold State.takeStore; split
  · exact h.complete _ _ hs
  · split
    · exact h.complete _ _ hs
    · split
      · exact h.complete _ _ hs
      · split
        · exact h.complete _ _ hs
        · rename_i hk hr hst _ _ hj; exact h.complete _ _ (h.host _ _ (h.applyStore _ _ _ hs
            (by simpa using hr) hk hj))

theorem Keeps.takeRelease (h : Keeps Q) (s) (hs : Q s) (hr : s.opState = .running) : Q s.takeRelease := by
  unfold State.takeRelease; split
  · exact h.complete _ _ hs
  · split
    · rename_i hc; simp only [Bool.and_eq_true] at hc
      split
      · exact h.complete _ _ hs
      · rename_i hn; exact h.complete _ _ (h.vacate _ _ hs hr hc.1 hc.2 (by simpa using hn))
    · exact h.complete _ _ hs

theorem Keeps.takeResolveMoved (h : Keeps Q) (s) (hs : Q s) (hr : s.opState = .running) : Q s.takeResolveMoved := by
  unfold State.takeResolveMoved; split
  · rename_i hx; exact h.complete _ _ (h.completeMove _ _ _ hs hr hx)
  · exact h.complete _ _ hs

theorem Keeps.takeResolveNotMoved (h : Keeps Q) (s) (hs : Q s) (hr : s.opState = .running) :
    Q s.takeResolveNotMoved := by
  unfold State.takeResolveNotMoved; split
  · rename_i hx; exact h.complete _ _ (h.revert _ _ _ hs hr hx)
  · exact h.complete _ _ hs

theorem Keeps.takeDeclareSpindleEmpty (h : Keeps Q) (s) (hs : Q s) (hr : s.opState = .running) :
    Q s.takeDeclareSpindleEmpty := by
  unfold State.takeDeclareSpindleEmpty; split
  · rename_i hx; exact h.complete _ _ (h.spindleEmpty _ hs hr hx)
  · exact h.complete _ _ hs

theorem Keeps.takeRetryStore (h : Keeps Q) (s) (hs : Q s) (hr : s.opState = .running) : Q s.takeRetryStore := by
  unfold State.takeRetryStore; split
  · exact h.complete _ _ hs
  · split
    · rename_i hx; exact h.complete _ _ (h.retry _ _ hs hr hx)
    · exact h.complete _ _ hs

theorem Keeps.takeConfigStore (h : Keeps Q) (s) (hs : Q s) (hr : s.opState = .running) : Q s.takeConfigStore := by
  unfold State.takeConfigStore; split
  · exact h.complete _ _ hs
  · split
    · exact h.complete _ _ hs
    · split
      · exact h.complete _ _ hs
      · rename_i _ h1 h2 h3; exact h.complete _ _ (h.applyConfig _ _ hs hr h1 (by simpa using h2) (by simpa using h3))

theorem Keeps.writeCommand (h : Keeps Q) (s code) (hs : Q s) : Q (s.writeCommand code) := by
  unfold State.writeCommand
  split
  · exact h.issue _ _ _ h.takeFetch hs
  · exact h.issue _ _ _ (h.whenRunning _ (fun u a _ => h.takeNew u a)) hs
  · exact h.issue _ _ _ h.takeStore hs
  · exact h.issue _ _ _ h.takeDiscard hs
  · exact h.issue _ _ _ (h.whenRunning _ h.takeRelease) hs
  · exact h.issue _ _ _ h.takeLocate hs
  · exact h.issue _ _ _ (h.whenRunning _ h.takeResolveMoved) hs
  · exact h.issue _ _ _ (h.whenRunning _ h.takeResolveNotMoved) hs
  · exact h.issue _ _ _ (h.whenRunning _ h.takeDeclareSpindleEmpty) hs
  · exact h.issue _ _ _ (h.whenRunning _ h.takeRetryStore) hs
  · exact h.issue _ _ _ h.takeFlush hs
  · exact h.issue _ _ _ (h.whenRunning _ h.takeConfigStore) hs
  · exact h.issue _ _ _ (fun u a => h.complete _ _ a) hs

theorem Keeps.writeStatus (h : Keeps Q) (s d) (hs : Q s) : Q (s.writeStatus d) := by
  unfold State.writeStatus; split
  · exact h.host _ _ hs
  · exact hs

theorem Keeps.writeIntPending (h : Keeps Q) (s d) (hs : Q s) : Q (s.writeIntPending d) := by
  unfold State.writeIntPending; split
  · exact h.host _ _ hs
  · exact hs

theorem Keeps.writeIntEnable (h : Keeps Q) (s d) (hs : Q s) : Q (s.writeIntEnable d) := by
  unfold State.writeIntEnable; split
  · exact h.host _ _ hs
  · exact hs

theorem Keeps.writeWindow (h : Keeps Q) (s a d) (hs : Q s) : Q (s.writeWindow a d) := by
  unfold State.writeWindow; split
  · split
    · exact h.writeStatus _ _ hs
    · exact h.writeCommand _ _ hs
    · exact h.writeIntPending _ _ hs
    · exact h.writeIntEnable _ _ hs
    · exact h.host _ _ hs
  · exact hs

theorem Keeps.writeHold (h : Keeps Q) (s k v) (hs : Q s) : Q (s.writeHold k v) := by
  unfold State.writeHold; split
  · rename_i hc; simp only [Bool.and_eq_true, beq_iff_eq] at hc
    exact h.hold _ _ _ hs hc.1.1.2 hc.1.2 hc.2
  · exact hs

theorem Keeps.writeMeasure (h : Keeps Q) (s k v) (hs : Q s) : Q (s.writeMeasure k v) := by
  unfold State.writeMeasure; split
  · rename_i hc; simp only [Bool.and_eq_true, beq_iff_eq] at hc; exact h.measure _ _ _ hs hc.1.2 hc.2
  · exact hs

theorem Keeps.writeAttn (h : Keeps Q) (s k v) (hs : Q s) : Q (s.writeAttn k v) := by
  unfold State.writeAttn; split; exact h.setAttn _ _ _ hs; exact hs

theorem Keeps.linkFault (h : Keeps Q) (s x) (hs : Q s) : Q (s.linkFault x) :=
    h.host { s with link := { s.link with fault := x } } { s.host with causes := { s.host.causes with link := true } }
    (h.link s _ hs)

theorem Keeps.rqstbLeading (h : Keeps Q) (s) (hs : Q s) : Q s.rqstbLeading := by
  unfold State.rqstbLeading; (repeat' split) <;> first | exact h.link _ _ hs | exact h.linkFault _ _ hs

theorem Keeps.antakeLeading (h : Keeps Q) (s) (hs : Q s) : Q s.antakeLeading := by
  unfold State.antakeLeading; (repeat' split) <;> first | exact h.link _ _ hs | exact h.linkFault _ _ hs

theorem Keeps.takeAnswer (h : Keeps Q) (s) (hs : Q s) : Q s.takeAnswer := by
  unfold State.takeAnswer; split
  · dsimp only; split
    · exact h.reportTake _ (h.link _ _ hs)
    · exact h.link _ _ hs
  · exact hs

theorem Keeps.assertReset (h : Keeps Q) (s) (hs : Q s) : Q s.assertReset := by
  unfold State.assertReset; split
  · exact hs
  · split
    · exact h.resetLow _ _ hs
    · rename_i h0
      have hr : Q (s.resetExchange.setLink Link.cleared).resetHost := h.host _ _ (h.link _ _ (h.resetExchange _ hs h0))
      exact h.lostAnswer _ s.lostMark (h.resetLow _ true hr)

/-- An invariant that the operations keep is kept by every command, the scan apart. -/
theorem Keeps.exec (h : Keeps Q) (c : Instr) (hc : c = .scanComplete → ∀ s, Q s → Q s.completeScan) (s t) (hs :
    Q s) (he : exec c s = .next t) : Q t := by
  cases c <;> rw [← Host.Outcome.next.inj he]
  case call o x => exact h.latchRequest _ _ _ _ _ (fun u a b => h.decideCall u _ a b) hs
  case putaway o x => exact h.latchRequest _ _ _ _ _ (fun u a b => h.decidePutaway u a b) hs
  case done o => exact h.latchRequest _ _ _ _ _ (fun u a b => h.decideDone u _ a b) hs
  case abandon o => exact h.latchRequest _ _ _ _ _ (fun u a b => h.decideAbandon u _ a b) hs
  case charge o x => exact h.latchRequest _ _ _ _ _ (fun u a b => h.decideCharge u _ a b) hs
  case damage o x => exact h.latchRequest _ _ _ _ _ (fun u a b => h.decideDamage u a b) hs
  case probe o x => exact h.latchRequest _ _ _ _ _ (fun u a b => h.answer u _ a) hs
  case unknownRequest k o => exact h.latchRequest _ _ _ _ _ (fun u a b => h.decideRequest u _ _ a b) hs
  case strobeWhileBusy => exact h.rqstbLeading _ hs
  case rqstbLeadingEdge => exact h.rqstbLeading _ hs
  case antakeLeadingEdge => exact h.antakeLeading _ hs
  case takeWithoutAnswer => exact h.antakeLeading _ hs
  case answerTake => exact h.takeAnswer _ hs
  case answerRelease => exact h.releaseRecord _ hs
  case exchangeTimerExpiry => exact h.expireTimer _ hs
  case reset => exact h.assertReset _ hs
  case fetch => exact h.issue _ _ _ h.takeFetch hs
  case new => exact h.issue _ _ _ (h.whenRunning _ (fun u a _ => h.takeNew u a)) hs
  case store => exact h.issue _ _ _ h.takeStore hs
  case discard => exact h.issue _ _ _ h.takeDiscard hs
  case release => exact h.issue _ _ _ (h.whenRunning _ h.takeRelease) hs
  case locate => exact h.issue _ _ _ h.takeLocate hs
  case resolveMoved => exact h.issue _ _ _ (h.whenRunning _ h.takeResolveMoved) hs
  case resolveNotMoved => exact h.issue _ _ _ (h.whenRunning _ h.takeResolveNotMoved) hs
  case declareSpindleEmpty => exact h.issue _ _ _ (h.whenRunning _ h.takeDeclareSpindleEmpty) hs
  case retryStore => exact h.issue _ _ _ (h.whenRunning _ h.takeRetryStore) hs
  case flush => exact h.issue _ _ _ h.takeFlush hs
  case flushComplete => exact h.completeFlush _ hs
  case configStore => exact h.issue _ _ _ (h.whenRunning _ h.takeConfigStore) hs
  case unknownCommand code => exact h.writeCommand _ _ hs
  case statusWrite d => exact h.writeStatus _ _ hs
  case intPendingWrite d => exact h.writeIntPending _ _ hs
  case intEnableWrite d => exact h.writeIntEnable _ _ hs
  case registerWrite a d => exact h.writeWindow _ _ _ hs
  case holdSet k => exact h.writeHold _ _ _ hs
  case holdClear k => exact h.writeHold _ _ _ hs
  case measureSet k => exact h.writeMeasure _ _ _ hs
  case measureClear k => exact h.writeMeasure _ _ _ hs
  case attnSet k => exact h.writeAttn _ _ _ hs
  case attnClear k => exact h.writeAttn _ _ _ hs
  case dirtyWrite k v => exact hs
  case commitStart => exact h.startFlight _ hs
  case commitAttempt v n =>
    cases n
    · exact h.releaseRecord _ (h.endAttempt _ _ hs)
    · exact h.endAttempt _ _ hs
  case vccRise => exact h.supplyRises _ hs
  case vccFall => exact h.supplyFalls _ hs
  case powerOff => exact h.losePower _ hs
  case settleIntervalEnd => exact h.endSettle _ hs
  case scanComplete => exact hc rfl _ hs
  case resetRelease => exact h.resetLow _ _ hs
  case requestTakeByBlock => exact h.takeHandedOn _ hs
/-- An invariant that the operations keep is kept by every step. -/
theorem Keeps.step (h : Keeps Q) (s t) (hs : Q s) (hc : s.pending.head? = some .scanComplete → ∀ s, Q s →
    Q s.completeScan) (he : step s = .next t) : Q t := by
  unfold Sys2Proof.Machine.step at he
  split at he
  · rw [← Host.Outcome.next.inj he]; exact hs
  · rename_i c rest hp
    refine h.exec c (fun e => hc (by rw [hp, e]; rfl)) _ _ (h.pending _ rest hs) he

end Sys2Proof.Machine
end

