-- ==== Sys2Proof/Laws/Records.lean ====
section
/-! SUPPORT. The laws of one record (R4, R8, R12) under each rule that writes one: a change of place or flag, DAMAGE, a
charge, a STORE, and the load from the array. -/

namespace Sys2Proof.Machine

set_option Elab.async false

/-- R12: the zero values of a VACANT slot. -/
theorem Record.sound_vacant : Record.vacant.sound := ⟨fun h => absurd rfl h, fun _ => rfl, fun h => absurd rfl h⟩

/-- A change of location, home pocket, HOLD and MEASURE of a non-vacant slot. -/
theorem Record.sound_of_place {r : Record} (h : r.sound) (ho : r.condition ≠ .vacant) (l : Location) (p : Nat)
    (hold measure : Bool) : ({ r with location := l, home := p, hold, measure } : Record).sound :=
  ⟨fun _ => h.1 ho, fun e => absurd e ho, fun _ => h.2.2 ho⟩

/-- R26, R28: a non-vacant slot that becomes DAMAGED. -/
theorem Record.sound_damaged {r : Record} (h : r.sound) (ho : r.condition ≠ .vacant) :
    ({ r with condition := .damaged } : Record).sound :=
  ⟨fun _ => ⟨(h.1 ho).1, fun _ _ => .inr rfl⟩, fun e => absurd e (by simp), fun _ => h.2.2 ho⟩

theorem chargedCondition_ne_vacant (m : LifeMode) (left warn : Nat) : chargedCondition m left warn ≠ .vacant := by
  unfold chargedCondition
  (repeat' split) <;> simp

/-- R20, R21, R23: a charge keeps the laws, the condition non-vacant, and every field but the charged total, remaining
and the condition. -/
theorem Record.afterCharge_sound {r : Record} (h : r.sound) (ho : r.condition ≠ .vacant) (n : Nat) :
    (r.afterCharge n).sound ∧ (r.afterCharge n).condition ≠ .vacant ∧
      r.afterCharge n = { r with charged := (r.afterCharge n).charged, remaining := (r.afterCharge n).remaining,
                                 condition := (r.afterCharge n).condition } := by
  obtain ⟨h1, h2⟩ := h.1 ho
  obtain ⟨g1, g2, g3, g4, -⟩ := h.2.2 ho
  have held : chargedTotal r.charged n ≤ 16777215 := Nat.min_le_right _ _
  unfold Record.afterCharge
  split
  · exact ⟨h, ho, rfl⟩
  · split
    · exact ⟨⟨fun _ => ⟨h1, h2⟩, fun e => absurd e ho, fun _ => ⟨g1, g2, g3, g4, held⟩⟩, ho, rfl⟩
    · have hc := chargedCondition_ne_vacant r.mode (if r.mode = .uncounted then r.remaining else r.remaining - n) r.warn
      refine ⟨⟨fun _ => ⟨?_, fun hm hz => .inl ?_⟩, fun e => absurd e hc, fun _ => ⟨g1, g2, g3, g4, held⟩⟩, hc, rfl⟩
      · dsimp only; split <;> omega
      · dsimp only at hm hz ⊢; unfold chargedCondition; rw [if_pos ⟨hm, hz⟩]

/-- R28–R32: what an accepted STORE stores is a sound record of a non-vacant slot. -/
theorem WorkFields.toStore_sound {w : WorkFields} {P : Nat} {r : Record} (h : w.Accepted P r.location) (hr : r.sound) :
    (w.toStore r).condition ≠ .vacant ∧ (w.toStore r).sound := by
  obtain ⟨tool, rank, -, -, -, limit, remaining, warn, renew, -, -⟩ := h
  have hv : (w.toStore r).condition ≠ .vacant := by
    unfold WorkFields.toStore; dsimp only; (repeat' split) <;> simp
  refine ⟨hv, fun _ => ⟨remaining, fun hm hz => ?_⟩, fun e => absurd e hv, fun _ => ⟨tool, rank, ⟨limit, ?_⟩, warn, ?_⟩⟩
  · have hm : w.mode.toNat ≠ 0 := fun e => hm (by simp [WorkFields.toStore, e])
    have hz : w.remaining.toNat = 0 := hz
    unfold WorkFields.toStore; dsimp only
    split
    · simp
    · split
      · rename_i h1; have := renew h1; omega
      · simp [hm, hz]
  · show w.limit.toNat ≤ 65535
    have := w.limit.isLt; omega
  · show (if _ then _ else _) ≤ _
    split
    · omega
    · rename_i hn; exact (hr.2.2 (fun e => hn (.inr e))).2.2.2.2

/-- A newest valid copy satisfies what both copies do. -/
theorem CopyPair.newestValid_satisfies {α : Type} {P : α → Prop} {c : CopyPair α} {n x} (h : c.satisfies P)
    (e : c.newestValid = some (n, x)) : P x := by
  obtain ⟨a, b⟩ := c
  unfold CopyPair.newestValid at e
  dsimp only at e
  (repeat' split at e) <;> simp at e <;> obtain ⟨_, rfl⟩ := e <;> first | exact h.1 | exact h.2

/-- R169: the scan loads a sound record from sound copies. -/
theorem loadSlot_sound {c : CopyPair Record} (h : c.satisfies Record.sound) : (loadSlot c).fields.sound := by
  unfold loadSlot
  split
  · rename_i e; exact CopyPair.newestValid_satisfies h e
  · split <;> exact Record.sound_vacant

end Sys2Proof.Machine
end

