-- ==== Sys2Proof/Laws/Scan.lean ====
section
/-! SUPPORT. The start-up scan (R168–R173): what one repair may do to a slot, a pass as a function of the slot it
takes, and the queue that a list of handings builds. -/

namespace Sys2Proof.Machine

set_option Elab.async false

/-! ### What a repair may do to a slot -/

/-- R170, R171: what the repairs and the seeding may make of slot state `x` in a ring of `P` pockets. -/
structure SlotScanned (P : Nat) (x y : SlotState) : Prop where
  condition : y.fields.condition = x.fields.condition
  tool : y.fields.tool = x.fields.tool
  rank : y.fields.rank = x.fields.rank
  size : y.fields.size = x.fields.size
  location : y.fields.location = x.fields.location ∨ ∃ q, y.fields.location = .unknown q ∧ ∀ p, q = some p → p ≤ P
  hold : x.fields.hold = true → y.fields.hold = true
  home : y.fields.home = x.fields.home ∨ y.fields.home = 0
  life : y.fields.mode = x.fields.mode ∧ y.fields.limit = x.fields.limit ∧ y.fields.remaining = x.fields.remaining ∧
    y.fields.warn = x.fields.warn ∧ y.fields.charged = x.fields.charged
  vacant : x.fields.condition = .vacant → y.fields = x.fields
  marked : y.fields = x.fields ∨ (y.attn = true ∧ y.dirty = true)
  attn : x.attn = true → y.attn = true
  dirty : x.dirty = true → y.dirty = true
  stamp : y.stamp = x.stamp

theorem SlotScanned.refl (P x) : SlotScanned P x x := ⟨rfl, rfl, rfl, rfl, .inl rfl, id, .inl rfl,
    ⟨rfl, rfl, rfl, rfl, rfl⟩, fun _ => rfl, .inl rfl, id, id, rfl⟩

theorem SlotScanned.trans {P x y z} (h : SlotScanned P x y) (h' : SlotScanned P y z) : SlotScanned P x z where
  condition := h'.condition.trans h.condition
  tool := h'.tool.trans h.tool
  rank := h'.rank.trans h.rank
  size := h'.size.trans h.size
  location := by
    rcases h'.location with e | e
    · rw [e]; exact h.location
    · exact .inr e
  hold := fun e => h'.hold (h.hold e)
  home := by
    rcases h'.home with e | e
    · rw [e]; exact h.home
    · exact .inr e
  life := by
    obtain ⟨a, b, c, d, e⟩ := h'.life
    obtain ⟨a', b', c', d', e'⟩ := h.life
    exact ⟨a.trans a', b.trans b', c.trans c', d.trans d', e.trans e'⟩
  vacant := fun e => (h'.vacant (by rw [h.condition, e])).trans (h.vacant e)
  marked := by
    rcases h'.marked with e | e
    · rcases h.marked with e' | e'
      · exact .inl (e.trans e')
      · exact .inr ⟨h'.attn e'.1, h'.dirty e'.2⟩
    · exact .inr e
  attn := fun e => h'.attn (h.attn e)
  dirty := fun e => h'.dirty (h.dirty e)
  stamp := h'.stamp.trans h.stamp

/-- Every slot of the second work follows from that of the first. -/
def ScanStep (P : Nat) (w w' : ScanWork) : Prop := ∀ k : Slot, SlotScanned P (w.image[k]) (w'.image[k])

theorem ScanStep.refl (P w) : ScanStep P w w := fun _ => SlotScanned.refl _ _

theorem ScanStep.trans {P w w' w''} (h : ScanStep P w w') (h' : ScanStep P w' w'') : ScanStep P w w'' :=
    fun k => (h k).trans (h' k)

/-- One slot of the image replaced. -/
theorem ScanWork.image_set {w : ScanWork} {k j : Slot} {x : SlotState} :
    (w.image.set k x)[j] = if j = k then x else w.image[j] := by
  by_cases h : j = k
  · subst h; simp
  · have : (k : Nat) ≠ j := fun e => h (Fin.ext e.symm)
    simp [this, h]

theorem ScanStep.of_set {P} {w w' : ScanWork} {k : Slot} {x} (hi : w'.image = w.image.set k x)
    (h : SlotScanned P (w.image[k]) x) : ScanStep P w w' := by
  intro j; rw [hi, ScanWork.image_set]; split
  · rename_i e; subst e; exact h
  · exact SlotScanned.refl _ _

/-- A repair of a non-vacant slot that changes its location, home pocket and HOLD alone. -/
theorem ScanStep.of_repair {P} (w : ScanWork) (k new c) (ho : (w.record k).occupied = true)
    (h : new = { w.record k with location := new.location, home := new.home, hold := new.hold })
    (hl : new.location = (w.record k).location ∨ ∃ q, new.location = .unknown q ∧ ∀ p, q = some p → p ≤ P)
    (hh : (w.record k).hold = true → new.hold = true) (hm : new.home = (w.record k).home ∨ new.home = 0) :
    ScanStep P w (w.repair k new c) := by
  refine ScanStep.of_set (k := k) rfl ?_
  rw [Record.occupied_iff] at ho
  constructor
  · rw [h]; rfl
  · rw [h]; rfl
  · rw [h]; rfl
  · rw [h]; rfl
  · exact hl
  · exact hh
  · exact hm
  · rw [h]; exact ⟨rfl, rfl, rfl, rfl, rfl⟩
  · intro e; exact absurd e ho
  · exact .inr ⟨rfl, rfl⟩
  · intro _; rfl
  · intro _; rfl
  · rfl

/-- R10: the pocket part that a location repair keeps lies in the ring. -/
theorem keptPocket_le (P q p) (h : keptPocket P q = some p) : p ≤ P := by
  unfold keptPocket at h; rw [Option.filter_eq_some_iff] at h; simpa using h.2

theorem ScanStep.of_repairLocation {P} (w : ScanWork) (k) (ho : (w.record k).occupied = true) :
    ScanStep P w (w.repairLocation P k) :=
  ScanStep.of_repair w k _ _ ho rfl (.inr ⟨_, rfl, fun _ h => keptPocket_le _ _ _ h⟩) id (.inl rfl)

theorem ScanStep.of_mark {P} (w : ScanWork) (k) : ScanStep P w (w.mark k) := by
  refine ScanStep.of_set (k := k) rfl ?_
  exact ⟨rfl, rfl, rfl, rfl, .inl rfl, id, .inl rfl, ⟨rfl, rfl, rfl, rfl, rfl⟩, fun _ => rfl, .inl rfl,
    fun _ => rfl, id, rfl⟩

theorem scanTransit_step (P w k) : ScanStep P w (scanTransit P w k) := by
  unfold scanTransit; (repeat' split) <;> first
    | exact ScanStep.refl _ _
    | exact ScanStep.of_repairLocation _ _ (by assumption)

theorem scanBeyond_step (P w k) : ScanStep P w (scanBeyond P w k) := by
  unfold scanBeyond; (repeat' split) <;> first
    | exact ScanStep.refl _ _
    | (rename_i h; simp only [Bool.and_eq_true] at h; exact ScanStep.of_repairLocation _ _ h.1)

theorem scanShared_step (P w k) : ScanStep P w (scanShared P w k) := by
  unfold scanShared; (repeat' split) <;> first
    | exact ScanStep.refl _ _
    | (rename_i h; simp only [Bool.and_eq_true] at h; exact ScanStep.of_repairLocation _ _ h.1)

theorem scanSpindle_step (P w k) : ScanStep P w (scanSpindle P w k) := by
  unfold scanSpindle; (repeat' split) <;> first
    | exact ScanStep.refl _ _
    | (rename_i h; simp only [Bool.and_eq_true] at h; exact ScanStep.of_repairLocation _ _ h.1)

/-- The neighbour's holder, as pass 5 finds it. -/
theorem ScanWork.holderOf_spec (w : ScanWork) (k q) :
    (w.holderOf k q = none ↔ ∀ j, j ≠ k → (w.record j).occupied = true → (w.record j).location ≠ .pocket q) ∧
    (∀ n, w.holderOf k q = some n → n ≠ k ∧ (w.record n).occupied = true ∧ (w.record n).location = .pocket q) := by
  constructor
  · simp [ScanWork.holderOf, mem_slots]
  · intro n h; have := List.find?_some h; simpa [and_assoc] using this

theorem scanNeighbour_step (P k p w q) (ho : (w.record k).occupied = true) : ScanStep P w (scanNeighbour P k p w q) :=
    by
  unfold scanNeighbour; split
  · split
    · rename_i n h
      split
      · exact ScanStep.of_repairLocation _ _ ((ScanWork.holderOf_spec w k q).2 n h).2.1
      · exact ScanStep.of_repairLocation _ _ ho
    · exact ScanStep.refl _ _
  · exact ScanStep.refl _ _

theorem ScanStep.occupied {P w w'} (h : ScanStep P w w') (k) : (w'.record k).occupied = (w.record k).occupied := by
  unfold Record.occupied ScanWork.record; rw [(h k).condition]

theorem scanLarge_step (P w k) : ScanStep P w (scanLarge P w k) := by
  unfold scanLarge; split
  · rename_i p _; split
    · rename_i h; simp only [Bool.and_eq_true] at h
      have a := scanNeighbour_step P k p w (ringBefore P p) h.1
      exact a.trans (scanNeighbour_step P k p _ _ (by rw [ScanStep.occupied a]; exact h.1))
    · exact ScanStep.refl _ _
  · exact ScanStep.refl _ _

theorem scanHome_step (P w k) : ScanStep P w (scanHome P w k) := by
  unfold scanHome; split
  · rename_i h; simp only [Bool.and_eq_true] at h
    exact ScanStep.of_repair w k _ _ h.1 rfl (.inl rfl) id (.inr rfl)
  · exact ScanStep.refl _ _

theorem scanDuplicate_step (P w k) : ScanStep P w (scanDuplicate w k) := by
  unfold scanDuplicate; split
  · rename_i h; simp only [Bool.and_eq_true] at h
    split
    · exact ScanStep.of_mark _ _
    · exact ScanStep.of_repair w k _ _ h.1 rfl (.inl rfl) (fun _ => rfl) (.inl rfl)
  · exact ScanStep.refl _ _

theorem scanSeed_step (P w k) : ScanStep P w (scanSeed w k) := by
  unfold scanSeed; split
  · exact ScanStep.of_mark _ _
  · exact ScanStep.refl _ _

/-- A pass over a list of slots. -/
theorem ScanStep.foldl {P} (f : ScanWork → Slot → ScanWork) (h : ∀ w k, ScanStep P w (f w k)) :
    ∀ (l : List Slot) w, ScanStep P w (l.foldl f w) := by
  intro l; induction l with
  | nil => intro w; exact ScanStep.refl _ _
  | cons a l ih => intro w; exact (h w a).trans (ih _)

/-- The scan's result follows slot by slot from the loaded image. -/
theorem scanRepairs_step (P image) : ScanStep P ⟨image, []⟩ (scanRepairs P image) := by
  unfold scanRepairs
  exact (ScanStep.foldl _ (scanTransit_step P) _ _).trans ((ScanStep.foldl _ (scanBeyond_step P) _ _).trans
    ((ScanStep.foldl _ (scanShared_step P) _ _).trans ((ScanStep.foldl _ (scanSpindle_step P) _ _).trans
      ((ScanStep.foldl _ (scanLarge_step P) _ _).trans ((ScanStep.foldl _ (scanHome_step P) _ _).trans
        ((ScanStep.foldl _ (scanDuplicate_step P) _ _).trans (ScanStep.foldl _ (scanSeed_step P) _ _)))))))

/-! ### A pass -/

/-- A pass over the first `n` slots. -/
theorem scanPass_take (f : ScanWork → Slot → ScanWork) (g : Slot → SlotState → SlotState) (C : Slot → Bool) (cls)
    (w0 : ScanWork)
    (h : ∀ w k, (∀ j : Slot, w.image[j] = if j < k then g j (w0.image[j]) else w0.image[j]) →
      f w k = ⟨w.image.set k (g k (w.image[k])), w.handings ++ (if C k then [(k, cls)] else [])⟩) :
    ∀ n, n ≤ 128 →
      (∀ j : Slot, ((slots.take n).foldl f w0).image[j] =
        if j.val < n then g j (w0.image[j]) else w0.image[j]) ∧
      ((slots.take n).foldl f w0).handings = w0.handings ++ ((slots.take n).filter C).map (·, cls) := by
  intro n; induction n with
  | zero => intro _; simp
  | succ n ih =>
    intro hn
    obtain ⟨a, b⟩ := ih (by omega)
    have hl : n < slots.length := by simp [slots]; omega
    have hs : slots[n]'hl = (⟨n, by omega⟩ : Slot) := by simp [slots]
    have hst : (slots.take (n + 1)).foldl f w0 = f ((slots.take n).foldl f w0) ⟨n, by omega⟩ := by
      rw [List.take_add_one, List.getElem?_eq_getElem hl, hs]; simp
    have hft : (slots.take (n + 1)).filter C = (slots.take n).filter C ++ (if C ⟨n, by omega⟩ then [⟨n,
        by omega⟩] else []) := by
      rw [List.take_add_one, List.getElem?_eq_getElem hl, hs]; simp [List.filter_cons]
    rw [hst, hft]
    obtain ⟨w, hw⟩ : ∃ w, w = (slots.take n).foldl f w0 := ⟨_, rfl⟩
    rw [← hw] at a b ⊢
    rw [h w ⟨n, by omega⟩ (fun j => by rw [a]; rfl)]
    constructor
    · intro j
      show (w.image.set _ _)[j] = _
      rw [ScanWork.image_set]
      by_cases e : j = ⟨n, by omega⟩
      · subst e; simp [a]
      · have : j.val ≠ n := fun h => e (Fin.ext h)
        rw [if_neg e, a]
        have : (j.val < n) ↔ (j.val < n + 1) := by omega
        simp [this]
    · simp only [b, List.map_append, List.append_assoc]
      congr 2
      by_cases e : C ⟨n, by omega⟩ <;> simp [e]

/-- A pass that makes `g k` of slot `k`, and hands it where `C k` holds, does so slot by slot in increasing number. -/
theorem scanPass (f : ScanWork → Slot → ScanWork) (g : Slot → SlotState → SlotState) (C : Slot → Bool) (cls)
    (w0 : ScanWork)
    (h : ∀ w k, (∀ j : Slot, w.image[j] = if j < k then g j (w0.image[j]) else w0.image[j]) →
      f w k = ⟨w.image.set k (g k (w.image[k])), w.handings ++ (if C k then [(k, cls)] else [])⟩) :
    (∀ j : Slot, (slots.foldl f w0).image[j] = g j (w0.image[j])) ∧
    (slots.foldl f w0).handings = w0.handings ++ (slots.filter C).map (·, cls) := by
  have := scanPass_take f g C cls w0 h 128 (le_refl _)
  rw [List.take_of_length_le (by simp [slots])] at this
  exact ⟨fun j => by rw [this.1 j, if_pos j.isLt], this.2⟩

/-! ### The queue of the handings -/

/-- R152: urgent handings without repetition stand in their order. -/
theorem urgentHandings : ∀ (l : List Slot) (q : CommitQueue), q.normal = [] → l.Nodup →
    (∀ k ∈ l, Entry.slot k ∉ q.urgent) →
    (l.map (·, CommitClass.urgent)).foldl (fun q h => q.hand (.slot h.1) h.2) q =
      { urgent := q.urgent ++ l.map .slot, normal := [] } := by
  intro l; induction l with
  | nil => intro q h _ _; cases q; simp at h ⊢; exact h
  | cons k l ih =>
    intro q h hn hm
    rw [List.nodup_cons] at hn
    have e : q.hand (.slot k) .urgent = { urgent := q.urgent ++ [.slot k], normal := [] } := by
      unfold CommitQueue.hand; simp only; rw [if_neg (by simpa using hm k (by simp)), h]; rfl
    rw [List.map_cons, List.foldl_cons]
    show List.foldl _ (q.hand (.slot k) .urgent) _ = _
    rw [e, ih _ rfl hn.2]
    · simp
    · intro j hj
      simp only [List.mem_append, List.mem_singleton, Entry.slot.injEq, not_or]
      exact ⟨hm j (by simp [hj]), fun e => hn.1 (e ▸ hj)⟩

/-- R152: normal handings without repetition are appended where the slot does not stand in the queue. -/
theorem normalHandings : ∀ (l : List Slot) (q : CommitQueue), l.Nodup →
    (l.map (·, CommitClass.normal)).foldl (fun q h => q.hand (.slot h.1) h.2) q =
      { urgent := q.urgent, normal := q.normal ++ (l.filter (fun k => !q.holds (.slot k))).map .slot } := by
  intro l; induction l with
  | nil => intro q _; simp
  | cons k l ih =>
    intro q hn
    rw [List.nodup_cons] at hn
    rw [List.map_cons, List.foldl_cons]
    show List.foldl _ (q.hand (.slot k) .normal) _ = _
    rw [ih _ hn.2]
    by_cases e : q.holds (.slot k) = true
    · have : q.hand (.slot k) .normal = q := by simp [CommitQueue.hand, e]
      rw [this]; simp [e]
    · have : q.hand (.slot k) .normal = { q with normal := q.normal ++ [.slot k] } := by simp [CommitQueue.hand, e]
      rw [this]
      have f : l.filter (fun j => !({ q with normal := q.normal ++ [.slot k] } : CommitQueue).holds (.slot j)) =
          l.filter (fun j => !q.holds (.slot j)) := by
        apply List.filter_congr
        intro j hj
        have hne : j ≠ k := fun e => hn.1 (e ▸ hj)
        simp [CommitQueue.holds, hne]
      rw [f]; simp [e]

/-- R172: urgent handings without repetition, then two runs of normal ones. -/
theorem ScanWork.queue_of_handings (w : ScanWork) (U H R : List Slot) (hU : U.Nodup) (hH : H.Nodup) (hR : R.Nodup)
    (h : w.handings = U.map (·, .urgent) ++ H.map (·, .normal) ++ R.map (·, .normal)) :
    let home := H.filter (fun k => decide (k ∉ U))
    w.queue =
      { urgent := U.map .slot
        normal := (home ++ R.filter (fun k => decide (k ∉ U ∧ k ∉ home))).map .slot } := by
  intro home
  unfold ScanWork.queue
  rw [h, List.foldl_append, List.foldl_append, urgentHandings _ _ rfl hU (by simp), normalHandings _ _ hH,
    normalHandings _ _ hR]
  have alone (k : Slot) :
      (!({ urgent := U.map .slot, normal := [] } : CommitQueue).holds (.slot k)) = decide (k ∉ U) := by
    simp [CommitQueue.holds]
  simp only [List.nil_append, List.map_append, alone]
  congr 3
  refine List.filter_congr fun k _ => ?_
  simp only [show List.filter (fun k => decide (k ∉ U)) H = home from rfl]
  simp [CommitQueue.holds]

end Sys2Proof.Machine
end

