-- ==== Sys2Proof/Tests/Slice0.lean ====
section
/-! SUPPORT. The model's own tests: the worked examples of the spec, step by step; the ill-formed terms that the check
refuses; and, for every statement with hypotheses, concrete states that meet them, clause by clause
(`witness_<statement>`). -/

namespace Sys2Proof.Tests

open Sys2Proof.Machine

set_option Elab.async false

/-! ### The states of the tests -/

/-- The state after a command. -/
def after (c : Instr) (s : State) : State :=
  match exec c s with
  | .next t => t
  | .fault _ => s
  | .refused _ => s

/-- A NORMAL tool without life accounting (R8). -/
def tool (number rank : Nat) (condition : Condition) (location : Location) (home : Nat) : Record :=
  { condition, tool := number, rank, size := .normal, mode := .uncounted, limit := 100, remaining := 100, warn := 0,
    charged := 0, location, home, hold := false, measure := false }

/-- The state with slot `k` holding `r` at an edit stamp, durable in copy A with generation 0. -/
def plant (s : State) (k : Slot) (r : Record) (stamp : Stamp) : State :=
  { s with image := s.image.set k { fields := r, attn := false, dirty := false, storeFault := false, stamp }
           slotCopies := s.slotCopies.set k { a := .valid r 0, b := .erased }
           newest := s.newest.set k (some ⟨.a, 0⟩) }

/-- RUNNING over a blank array with an EMPTY spindle, and a leading edge of /RQSTB accepted. -/
def ready : State :=
  { State.reset with
    opState := .running, settleRunning := false, imageHeld := true, config := some ⟨24, .fixed, 30⟩, spindle := .empty
    link := { Link.cleared with phase := .receiving, rqMark := true } }

/-- The tools of spec/05, section 5.8: slot 5 with tool 17, home 12, MEASURE; slot 8 with tool 40, home 4. -/
def tools (at5 at8 : Location) (spindle : Spindle) (exchange : Exchange) : State :=
  { plant (plant ready 5 { tool 17 1 .fresh at5 12 with measure := true } 10) 8 (tool 40 1 .used at8 4) 22
    with spindle, exchange, nextTag := 15 }

/-- The state before the CALL of section 5.8. -/
def demo : State := tools (.pocket 12) .spindle (.holds 8) .idle

/-- Both tools in the magazine and the spindle EMPTY. -/
def stowed : State := tools (.pocket 12) (.pocket 4) .empty .idle

/-- Slot 8 at an UNKNOWN location without a pocket, and the spindle UNKNOWN. -/
def lost : State := tools (.pocket 12) (.unknown none) .unknown .idle

/-- The exchange of section 5.8 open with a tag. -/
def moving (context : OpenExchange → Exchange) (tag : Nat) : State :=
  tools (.transitIn 12) (.transitBack 4) .exchanging (context ⟨tag, .call 5 12 (some (8, 4))⟩)

/-- A PUTAWAY of slot 8 to pocket 4 open with tag 15. -/
def putting (context : OpenExchange → Exchange) : State :=
  tools (.pocket 12) (.transitBack 4) .exchanging (context ⟨15, .putaway 8 4⟩)

/-- A CALL of slot 5 into an EMPTY spindle open with tag 15. -/
def fetching (context : OpenExchange → Exchange) : State :=
  tools (.transitIn 12) (.pocket 4) .exchanging (context ⟨15, .call 5 12 none⟩)

/-- RESERVED with the timer at 30 s. -/
def reserved (x : OpenExchange) : Exchange := .reserved x 30

/-- The exchange of section 5.8 SUSPECT with a tag. -/
def doubted (tag : Nat) (cause : Suspicion) : State :=
  tools (.unknown (some 12)) (.unknown (some 4)) .unknown (.suspect ⟨tag, .call 5 12 (some (8, 4))⟩ cause)

/-- The state in another operating state. -/
def inState (op : OpState) (s : State) : State := { s with opState := op }

/-- Slot 9 in the spindle. -/
def chucked (r : Record) (stamp : Stamp) : State := { plant ready 9 r stamp with spindle := .holds 9 }

/-- The counted tool of spec/02, section 2.3, at a point of its life. -/
def counted (remaining charged : Nat) (condition : Condition) : Record :=
  { tool 112 1 condition .spindle 0 with mode := .count, limit := 500, remaining, warn := 50, charged }

/-- The sister group of spec/03, section 3.6. -/
def sisters : State :=
  { plant (plant (plant (plant (plant ready 7 (tool 88 1 .used .spindle 3) 0) 14 (tool 230 1 .worn (.pocket 5) 5) 0)
      31 { tool 230 2 .used (.pocket 9) 9 with hold := true } 0) 52 (tool 230 3 .nearEnd (.pocket 17) 17) 0)
      60 (tool 230 4 .fresh .out 0) 0 with spindle := .holds 7 }

/-- The ring of spec/04, section 4.6, under a policy: P = 8, a LARGE tool in the spindle. -/
def ring8 (policy : Policy) : State :=
  { plant (plant (plant (plant ready 20 { tool 200 1 .used .spindle 6 with size := .large } 0)
      10 (tool 110 1 .used (.pocket 2) 2) 0) 11 (tool 111 1 .used (.pocket 3) 3) 0)
      12 (tool 112 1 .used (.pocket 5) 5) 0 with spindle := .holds 20, config := some ⟨8, policy, 30⟩ }

/-- A ring of 8 pockets in which a LARGE tool without a home fits nowhere: pockets 1, 4 and 7 are occupied. -/
def packed (policy : Policy) : State :=
  { plant (plant (plant (plant ready 20 { tool 200 1 .used .spindle 0 with size := .large } 0)
      10 (tool 110 1 .used (.pocket 1) 1) 0) 11 (tool 111 1 .used (.pocket 4) 4) 0)
      12 (tool 112 1 .used (.pocket 7) 7) 0 with spindle := .holds 20, config := some ⟨8, policy, 30⟩ }

/-- The array of spec/10, section 10.5, with the settle interval run out. -/
def array105 : State :=
  let put (s : State) (k : Slot) (r : Record) : State :=
    { s with slotCopies := s.slotCopies.set k { a := .valid r 0, b := .erased } }
  let s : State := { State.reset with opState := .scanning, settleRunning := false
                                      cfgCopies := { a := .invalid, b := .erased } }
  let s := put (put (put s 2 (tool 14 1 .used (.pocket 26) 26)) 4
    { tool 88 1 .fresh (.pocket 10) 10 with size := .large }) 6 (tool 91 1 .used (.pocket 11) 11)
  let s := put (put (put s 9 (tool 40 1 .nearEnd .spindle 4)) 12 (tool 41 1 .used .spindle 6)) 15
    (tool 42 1 .used (.transitBack 3) 3)
  put (put (put s 20 (tool 500 1 .fresh (.pocket 5) 5)) 21 (tool 500 1 .used (.pocket 7) 7)) 30
    (tool 77 1 .used (.pocket 5) 5)

/-- A commit of slot 5 in flight, with the queue given. -/
def flying (cls : CommitClass) (attempt : Nat) (urgent normal : List Entry) (s : State) : State :=
  { s with queue := { urgent, normal }
           flight := some { content := .slot 5 (s.record 5) (s.slot 5).stamp, cls, attempt, target := .b, gen := 1,
                            confirmSet := false } }

/-- A commit of CFG in flight. -/
def flyingCfg (attempt : Nat) (s : State) : State :=
  { s with flight := some { content := .cfg ⟨24, .fixed, 30⟩, cls := .urgent, attempt, target := .a, gen := 0,
                            confirmSet := false } }

/-- The link presenting an answer sequence at a position. -/
def presenting (answers : List (Option Answer)) (position : Nat) (status : Presentation) (s : State) : State :=
  { s with link := { Link.cleared with
      phase := .answering, latch := some 0x1011, answers, position, status, anMark := decide (status = .taking)
      an := (((answers[position]?).join).map Answer.word).getD 0 } }

/-- A confirmation record that waits on slots 5 and 8, with their confirm-from stamps at the stamps they have. -/
def awaiting (withheld : Withheld) (mark5 mark8 : Bool) (failed : Option Slot) (s : State) : State :=
  { s with confirmation := some { withheld, waiting := [(5, mark5), (8, mark8)], failed }
           confirmFrom := (s.confirmFrom.set 5 (some (s.slot 5).stamp)).set 8 (some (s.slot 8).stamp) }

/-- The Host Port with a work record under edit. -/
def editing (work : WorkFields) (workState : WorkState) (s : State) : State :=
  { s with host := { HostPort.powerOn with work, workState } }

/-- The Host Port with its argument registers. -/
def asking (slot : Byte) (number : BitVec 16) (position : Byte) (s : State) : State :=
  { s with host := { HostPort.powerOn with argSlot := slot, argTool := number, argPos := position } }

/-- A work record that stores tool `number` with rank `rank` at a location, unlimited, under directive KEEP. -/
def sheet (number : BitVec 16) (rank locKind locPocket : Byte) : WorkFields :=
  { WorkFields.zero with tool := number, rank, limit := 100, remaining := 100, locKind, locPocket }

theorem arrives (at5 at8 : Location) (sp : Spindle) (e : Exchange) : (tools at5 at8 sp e).RequestArrives :=
  ⟨rfl, rfl, rfl⟩

theorem taken (at5 at8 : Location) (sp : Spindle) (e : Exchange) : (tools at5 at8 sp e).CommandTaken :=
  ⟨by simp [tools, plant, ready], rfl, rfl⟩

/-! ### Sound states, checked slot by slot -/

/-- The pocket that an end of a movement gives slot `k`. -/
def endOf (e : Option (Slot × Nat)) (k : Slot) : Option Nat := e.bind (fun e => if e.1 = k then some e.2 else none)

theorem endOf_eq {e : Option (Slot × Nat)} {k : Slot} {p : Nat} : endOf e k = some p ↔ e = some (k, p) := by
  rcases e with _ | ⟨j, q⟩
  · simp [endOf]
  · by_cases h : j = k <;> simp [endOf, h]

/-- The transit pocket of a location, inward or back. -/
def transitOf (inward : Bool) : Location → Option Nat
  | .transitIn p => if inward then some p else none
  | .transitBack p => if inward then none else some p
  | _ => none

theorem transitOf_in {l : Location} {p : Nat} : transitOf true l = some p ↔ l = .transitIn p := by
  cases l <;> simp [transitOf]

theorem transitOf_back {l : Location} {p : Nat} : transitOf false l = some p ↔ l = .transitBack p := by
  cases l <;> simp [transitOf]

/-- What ExchangeSound asks, slot by slot. -/
abbrev ExchangeChecked (s : State) : Prop :=
  (∀ x ∈ s.exchange.open?, x.movement.named.Nodup ∧ ∀ k ∈ x.movement.named, (s.record k).occupied = true) ∧
  (∀ k : Slot, transitOf true (s.record k).location =
    s.exchange.moving?.bind (fun x => endOf x.movement.incoming k)) ∧
  (∀ k : Slot, transitOf false (s.record k).location =
    s.exchange.moving?.bind (fun x => endOf x.movement.outgoing k)) ∧
  (∀ x ∈ s.exchange.suspect?, s.spindle = .unknown ∧
    ∀ e ∈ x.movement.incoming.toList ++ x.movement.outgoing.toList, (s.record e.1).location = .unknown (some e.2)) ∧
  (s.spindle = .exchanging ↔ s.exchange.moving? ≠ none)

theorem exchange_sound {s : State} (h : ExchangeChecked s) : s.ExchangeSound where
  distinct x hx := (h.1 x hx).1
  occupied x hx := (h.1 x hx).2
  movingIn k p := by rw [← transitOf_in, h.2.1, Option.bind_eq_some_iff]; simp only [endOf_eq]
  movingBack k p := by rw [← transitOf_back, h.2.2.1, Option.bind_eq_some_iff]; simp only [endOf_eq]
  doubted x hx k p hk := by
    refine (h.2.2.2.1 x hx).2 (k, p) ?_
    rcases hk with hk | hk <;> simp [hk]
  exchanging := h.2.2.2.2
  suspected hx := by
    obtain ⟨x, hx⟩ := Option.ne_none_iff_exists'.mp hx
    exact (h.2.2.2.1 x hx).1

theorem spindle_sound {s : State} (h : ∀ k : Slot, (s.record k).location = .spindle ↔ s.spindle = .holds k) :
    s.SpindleSound := h

/-- The laws of the table for the states here: copies B are erased, and slots 5 and 8 alone may hold tools. -/
theorem table_sound {s : State} (he : ExchangeChecked s)
    (hs : ∀ k : Slot, (s.record k).location = .spindle ↔ s.spindle = .holds k) (hr : ∀ k : Slot, (s.record k).sound)
    (hc : ∀ k : Slot, s.slotCopies[k] = ⟨.erased, .erased⟩ ∨ s.slotCopies[k] = ⟨.valid (s.record k) 0, .erased⟩)
    (hv : ∀ k : Slot, k ≠ 5 → k ≠ 8 → (s.record k).condition = .vacant) (hn : ¬ ranksBelow s.record 5 8)
    (ht : (1 ≤ s.nextTag ∧ s.nextTag ≤ 15) ∧ ∀ x ∈ s.exchange.open?, 1 ≤ x.tag ∧ x.tag ≤ 15) (hf : s.flight = none) :
    s.TableSound where
  records :=
    { image := hr
      copies := fun k => by
        rcases hc k with h | h <;> rw [h]
        · exact ⟨trivial, trivial⟩
        · exact ⟨hr k, trivial⟩
      flight := by simp [hf] }
  exchange := exchange_sound he
  spindle := hs
  tags := ht
  ranks j k hk hb := by
    have only {i : Slot} (h : (s.record i).condition ≠ .vacant) : i = 5 ∨ i = 8 := by
      by_contra hi
      exact h (hv i (fun e => hi (.inl e)) (fun e => hi (.inr e)))
    rcases only hk with rfl | rfl <;> rcases only hb.2.1 with rfl | rfl <;>
      first | exact absurd hb hn | exact absurd hb.1 (by decide)

/-! ### The well-formedness check -/

/-- R98: kinds 1 to 7 name requests, so they are no unknown request. -/
theorem test_unknownRequest_refused :
    ∀ k ∈ [1, 2, 3, 4, 5, 6, 7], (Instr.unknownRequest (BitVec.ofNat 4 k) 0).wellFormed = false := by decide

/-- R98: kinds 0 and 8 to 15 are. -/
theorem test_unknownRequest_taken :
    ∀ k ∈ [0, 8, 15], (Instr.unknownRequest (BitVec.ofNat 4 k) 0).wellFormed = true := by decide

/-- R117: codes 1 to 12 name commands. -/
theorem test_unknownCommand_refused :
    ∀ c ∈ [1, 2, 3, 4, 5, 6, 7, 8, 9, 10, 11, 12], (Instr.unknownCommand (BitVec.ofNat 8 c)).wellFormed = false := by
  decide

/-- R117: codes 0 and 13 to 255 do not. -/
theorem test_unknownCommand_taken :
    ∀ c ∈ [0, 13, 255], (Instr.unknownCommand (BitVec.ofNat 8 c)).wellFormed = true := by decide

/-- R114: STATUS, COMMAND, INT_PENDING and INT_ENABLE have rows of their own. -/
theorem test_registerWrite_refused :
    ∀ a ∈ [0x03, 0x04, 0x0A, 0x0B], (Instr.registerWrite (BitVec.ofNat 10 a) 0).wellFormed = false := by decide

/-! ### Words of the link (R97, R106), written out bit by bit -/

/-- R97: result TAG is 3, the tag stands in bits 10–7 and the return pocket in bits 6–0. -/
theorem test_word_tag : (Answer.tag 15 4).word = 0b00011_1111_0000100 := by decide

/-- R97, R106: CHARGED is 8; 2047 fills the value field. -/
theorem test_word_charged : (Answer.charged 2047).word = 0b01000_11111111111 := by decide

/-- R97: CALL is kind 1, in bits 15–12. -/
theorem test_word_call : requestWord kindCall 17 = 0b0001_000000010001 := by decide

/-! ### Worked sequences of the spec, one step each -/

/-- Section 2.3, CHARGE 60 at remaining 100: NEAR_END, 40 left, ATTN, stamp 42. -/
theorem test_charge_nearEnd :
    let t := after (.charge 60 .inStep) (chucked (counted 100 400 .used) 41)
    t.record 9 = counted 40 460 .nearEnd ∧ (t.slot 9).attn = true ∧ (t.slot 9).stamp = 42 ∧
      t.queue = ⟨[], [.slot 9]⟩ ∧ t.link.answers = [some (.chargedNearEnd 40)] := by decide +kernel

/-- Section 2.3, CHARGE 25 at remaining 10: WORN, the whole charge counted, urgent. -/
theorem test_charge_worn :
    let t := after (.charge 25 .inStep) (chucked (counted 10 490 .nearEnd) 43)
    t.record 9 = counted 0 515 .worn ∧ (t.slot 9).stamp = 44 ∧ t.queue = ⟨[.slot 9], []⟩ ∧
      t.link.an = 0b01010_00000000100 := by decide +kernel

/-- Section 2.3, DAMAGE of the worn tool: DAMAGED, stamp 46, DAMAGE_NOTED with the tool number. -/
theorem test_damage :
    let t := after (.damage 0 .inStep) (chucked (counted 0 520 .worn) 45)
    t.record 9 = counted 0 520 .damaged ∧ (t.slot 9).stamp = 46 ∧ t.link.answers = [some (.damageNoted 112)] := by
  decide +kernel

/-- Section 3.6: the list of 230, and PROBE before and after HOLD is set on slot 52. -/
theorem test_probe_sisters :
    sisters.callIndex 230 = [14, 31, 52, 60] ∧
      (after (.probe 230 .inStep) sisters).link.answers = [some (.selectable 17)] ∧
      (after (.probe 230 .inStep) (after (.holdSet 52) sisters)).link.answers = [some (.unavailable 2)] := by
  decide +kernel

/-- Section 3.6: LOCATE 230 at position 3 and at position 5. -/
theorem test_locate :
    (after .locate (asking 0 230 3 sisters)).host.argSlot = 52 ∧
      (after .locate (asking 0 230 5 sisters)).host.result = .notFound := by decide +kernel

/-- Section 4.6 under SWAP: slot 11 comes from pocket 3 and the LARGE tool leaves to pocket 7. -/
theorem test_call_swap :
    let t := after (.call 111 .inStep) (ring8 .swap)
    t.exchange = .offered ⟨1, .call 11 3 (some (20, 7))⟩ ∧
      [1, 2, 3, 4, 5, 6, 7, 8].map (fun p => (t.pocketReport p).1) = [1, 5, 4, 1, 5, 2, 4, 2] := by decide +kernel

/-- Section 4.6 under FIXED: the home pocket 6 has an occupied neighbour. -/
theorem test_call_noRoom :
    let t := after (.call 111 .inStep) (ring8 .fixed)
    t.exchange = .idle ∧ t.link.answers = [some (.noRoom 6)] := by decide +kernel

/-- Section 5.8, CALL 17: tag 15, the counter wraps to 1, both slots in transit and queued urgent in order. -/
theorem test_call_opens :
    let t := after (.call 17 .inStep) demo
    t.exchange = .offered ⟨15, .call 5 12 (some (8, 4))⟩ ∧ t.nextTag = 1 ∧ t.queue = ⟨[.slot 5, .slot 8], []⟩ ∧
      (t.record 5).location = .transitIn 12 ∧ (t.slot 5).stamp = 11 ∧ (t.record 8).location = .transitBack 4 ∧
      (t.slot 8).stamp = 23 ∧ t.link.answers = [some (.issueMeasure 12), none] := by decide +kernel

/-- Section 5.8, DONE 15: slot 5 in the spindle, slot 8 in pocket 4, which is its home. -/
theorem test_done :
    let t := after (.done 15) (moving reserved 15)
    t.exchange = .idle ∧ t.spindle = .holds 5 ∧ (t.record 8).location = .pocket 4 ∧ (t.record 8).home = 4 ∧
      t.queue = ⟨[.slot 5, .slot 8], []⟩ ∧ t.link.status = .held := by decide +kernel

/-- Section 5.8, the store fault of slot 5 at the open: word 2 is STORE_FAULT 5 and the exchange reverts. -/
theorem test_storeFault :
    let t := after (.commitAttempt .fail .inStep)
      (flying .urgent 3 [] [] (awaiting (.tag 15 4) false false none
        (presenting [some (.issueMeasure 12), none] 1 .held (moving .offered 15))))
    t.link.answers = [some (.issueMeasure 12), some (.storeFault 5)] ∧ t.exchange = .idle ∧
      (t.record 5).location = .pocket 12 ∧ t.spindle = .holds 8 ∧ t.queue = ⟨[.slot 5, .slot 8], []⟩ := by
  decide +kernel

/-- Section 8.7, the expiry: SUSPECT, ATTN on both, LOWEST_ATTN 5, ATTENTION and SUSPECT pending. -/
theorem test_timer :
    let t := after .exchangeTimerExpiry (moving reserved 6)
    t.exchange = .suspect ⟨6, .call 5 12 (some (8, 4))⟩ .timeout ∧ t.lowestAttn = 5 ∧ t.pendingCauses = 0b000110 ∧
      (t.record 5).location = .unknown (some 12) := by decide +kernel

/-- Section 8.7, RESOLVE_NOT_MOVED: slot 5 back in pocket 12, slot 8 back in the spindle. -/
theorem test_resolveNotMoved :
    let t := after .resolveNotMoved (doubted 6 .timeout)
    t.exchange = .idle ∧ (t.record 5).location = .pocket 12 ∧ t.spindle = .holds 8 ∧ t.host.result = .ok := by
  decide +kernel

/-- Section 8.7 and R136: a write at 1541 or 1544 clears ATTN, one at 1157 sets HOLD, whatever the data. -/
theorem test_hostWrite_flag : ∀ d ∈ [0#8, 255],
    hostWrite 1541 d = .attnClear 5 ∧ hostWrite 1157 d = .holdSet 5 ∧ hostWrite 1544 d = .attnClear 8 := by decide

/-- R114, R117: a write of 12 at COMMAND is CONFIG_STORE; at ARG_SLOT it is a plain write. -/
theorem test_hostWrite_window : hostWrite 4 12 = .configStore ∧ hostWrite 4 13 = .unknownCommand 13 ∧
    hostWrite 6 12 = .registerWrite 6 12 := by decide

/-- R135: the reads at 1919 and 2047 differ in A7 alone, which a read does not decode: both are DIRTY of slot 127. -/
theorem test_readHost_flag :
    let s := plant demo 127 (tool 9 1 .used .out 0) 0
    let t : State := { s with image := s.image.set 127 { s.slot 127 with dirty := true } }
    (∀ a ∈ [1919#11, 2047], s.readHost a = some 0) ∧ ∀ a ∈ [1919#11, 2047], t.readHost a = some 0x80 := by
  decide +kernel

/-- R112: the fall with the TAG of section 5.8 withheld, and the /RESET with a DAMAGE_NOTED shown, mark the answer of the
request in hand as lost; a fall with no answer in hand marks none. -/
theorem test_lostAnswer :
    (after .vccFall (presenting [some (.issue 12), none] 1 .held (moving .offered 15))).lostAnswer = some 0x1011 ∧
      (after .reset (presenting [some (.damageNoted 112)] 0 .shown demo)).lostAnswer = some 0x1011 ∧
      (after .vccFall (demo.handed 4 400)).lostAnswer = none := by decide +kernel

/-- R97, R98: the command that a word strobed in spells. -/
theorem test_requestCommand : requestCommand 0x1011 .inStep = .call 17 .inStep ∧
    requestCommand 0x7000 .later = .probe 0 .later ∧ requestCommand 0x8000 .inStep = .unknownRequest 8 0 := by decide

/-- Section 9.8: the supply falls with slot 12's urgent commit in flight; its target is invalid, its entry heads. -/
theorem test_vccFall :
    let t := after .vccFall (flying .urgent 1 [] [.slot 8] demo)
    t.opState = .frozen ∧ t.queue = ⟨[.slot 5], [.slot 8]⟩ ∧ t.flight = none ∧
      t.slotCopies[5].b = .invalid := by decide +kernel

/-- Section 9.8: a commit whose newest copy is A with generation 2 writes B with generation 3, which wraps to 0. -/
theorem test_generation :
    targetOf (some ⟨.a, 2⟩) = .b ∧ generationOf (some ⟨.a, 2⟩) = 3 ∧ generationOf (some ⟨.b, 3⟩) = 0 := by decide

/-- The array of section 10.5 as loaded, before any repair. -/
def loaded : ScanWork := { image := array105.loadedImage, handings := [] }

/-- Section 10.5: the location passes, each at the slot it examines; pass 5 examines LARGE slot 4 and repairs 6. With
slot 6 LARGE, examining it finds the lower-numbered slot 4 in the pocket before and repairs 6 itself (R170). -/
theorem test_scan_locations :
    ((scanTransit 24 loaded 15).record 15).location = .unknown (some 3) ∧
      ((scanBeyond 24 loaded 2).record 2).location = .unknown none ∧
      ((scanShared 24 loaded 30).record 30).location = .unknown (some 5) ∧
      ((scanSpindle 24 loaded 12).record 12).location = .unknown none ∧
      ((scanLarge 24 loaded 4).record 6).location = .unknown (some 11) ∧
      (scanLarge 24 loaded 4).handings = [(6, .urgent)] ∧
      (let image := loaded.image.set 6 { loaded.image[6] with fields := { loaded.record 6 with size := .large } }
       (scanLarge 24 ⟨image, []⟩ 6).handings = [(6, .urgent)]) := by decide +kernel

/-- Section 10.5: the field repairs of slots 2 and 21, and the seeding of slot 9. -/
theorem test_scan_fields :
    ((scanHome 24 loaded 2).record 2).home = 0 ∧ ((scanDuplicate loaded 21).record 21).hold = true ∧
      (scanDuplicate loaded 21).handings = [(21, .normal)] ∧ ((scanSeed loaded 9).image[9]).attn = true := by
  decide +kernel

/-- Section 10.5: the configuration is invalid and not erased, so the defaults are loaded with CONFIG_FAULT. -/
theorem test_scan_config : loadConfig array105.cfgCopies = (⟨24, .fixed, 30⟩, true) := by decide

/-! ### Witnesses: the commands, the supply and the link -/

theorem witness_StepRunsTheFrontCommand : State.reset.pending = [] := rfl

theorem witness_PowerCycle :
    (inState .off demo).opState = .off ∧ (inState .frozen demo).opState = .frozen ∧
      State.reset.opState = .settling ∧ array105.opState = .scanning := ⟨rfl, rfl, rfl, rfl⟩

/-- No flight; for a flight of slot 5 each place that its entry can have in the queue; and a link that answers, and one
that does not, in each state that the fall leaves. -/
theorem witness_SupplyFalls :
    (demo.opState = .running ∧ demo.flight = none) ∧
      (let s := flying .normal 1 [.slot 5] [] demo
       s.opState = .running ∧ ∃ f, s.flight = some f ∧ f.content.entry ∈ s.queue.urgent) ∧
      (let s := flying .urgent 3 [.slot 8] [.slot 5] demo
       s.opState = .running ∧ ∃ f, s.flight = some f ∧ f.content.entry ∉ s.queue.urgent ∧ f.cls = .urgent) ∧
      (let s := flying .normal 1 [] [.slot 5] demo
       ∃ f, s.flight = some f ∧ f.content.entry ∉ s.queue.urgent ∧ f.cls = .normal ∧
         f.content.entry ∈ s.queue.normal) ∧
      (let s := flying .normal 1 [] [.slot 8] demo
       ∃ f, s.flight = some f ∧ f.content.entry ∉ s.queue.urgent ∧ f.cls = .normal ∧
         f.content.entry ∉ s.queue.normal) ∧
      (let s := flyingCfg 1 demo
       s.opState = .running ∧ ∃ f, s.flight = some f ∧ f.content.entry = .cfg) ∧
      (State.reset.opState = .settling ∧ State.reset.link.phase ≠ .answering) ∧ array105.opState = .scanning ∧
      ∀ op ∈ [OpState.settling, .scanning, .running], let s := inState op (presenting [some (.notReady 1)] 0 .shown demo)
        s.opState = op ∧ s.link.phase = .answering := by
  refine ⟨⟨rfl, rfl⟩, ⟨rfl, _, rfl, ?_⟩, ⟨rfl, _, rfl, ?_⟩, ⟨_, rfl, ?_⟩, ⟨_, rfl, ?_⟩, ⟨rfl, _, rfl, rfl⟩,
    ⟨rfl, by decide⟩, rfl, fun _ _ => ⟨rfl, rfl⟩⟩ <;>
    simp [flying, Snapshot.entry]

theorem witness_SupplyRisesAndSettles :
    (inState .frozen demo).opState = .frozen ∧
      (State.reset.opState = .settling ∧ State.reset.settleRunning = true ∧ State.reset.imageHeld = false) ∧
      (let s := { inState .settling demo with settleRunning := true }
       s.opState = .settling ∧ s.settleRunning = true ∧ s.imageHeld = true ∧
         ∃ u, exec .commitStart { s with opState := .running, settleRunning := false } = .next u) :=
  ⟨rfl, ⟨rfl, rfl, rfl⟩, rfl, rfl, rfl, _, rfl⟩

theorem witness_IgnoredInputs :
    ((inState .off demo).opState = .off ∧ { demo with resetLow := true }.resetLow = true) ∧
      strobeEdge .antakeLeadingEdge = true ∧ (hostCode? .configStore).isSome = true ∧
      plainHostWrite (.attnSet 127) = true ∧
      (request? (.call 2047 .later) = some (1, 2047) ∧ State.reset.link.rqMark = false) ∧
      demo.link.anMark = false := ⟨⟨rfl, rfl⟩, rfl, rfl, rfl, ⟨rfl, rfl⟩, rfl⟩

/-- Every operating state that the link answers from, and on each side of every operand range a word that misfits. -/
theorem witness_LinkAnswersWhatItRefuses :
    (∀ op ∈ [OpState.settling, .scanning, .frozen, .running],
      (inState op demo).opState = op ∧ (inState op demo).resetLow = false ∧ (inState op demo).link.rqMark = true) ∧
      request? (.unknownRequest 0 0) = some (0, 0) ∧ request? (.call 0 .inStep) = some (1, 0) ∧
      (∀ w ∈ ([(0, 0), (8, 0), (15, 4095), (1, 0), (1, 2048), (2, 0), (2, 16), (3, 0), (3, 16), (5, 1), (6, 4095),
        (7, 2048)] : List (BitVec 4 × BitVec 12)), ¬ requestFits w.1 w.2) := by
  refine ⟨by simp [inState]; exact ⟨rfl, rfl⟩, rfl, rfl, ?_⟩
  simp [requestFits]

/-- The bounds of the operand ranges; and a PROBE of the spindle and a DAMAGE handed on in RUNNING. -/
theorem witness_RequestTakenLaterDecidesAlike :
    demo.RequestArrives ∧
      (∀ kind ∈ [5#4, 7], (demo.handed kind 0).link.phase = .handedOn ∧ (demo.handed kind 0).opState = .running ∧
        (demo.handed kind 0).link.leftRunning = false ∧ (demo.handed kind 0).spindle = .holds 8) ∧
      (demo.handed 7 0).link.latch = some 0x7000 ∧ (demo.handed 5 0).link.latch = some 0x5000 ∧
      ∀ w ∈ ([(1, 1), (1, 2047), (6, 0), (4, 0), (4, 4095), (5, 0), (7, 0), (7, 2047)] : List (BitVec 4 × BitVec 12)),
        requestFits w.1 w.2 := by
  refine ⟨arrives _ _ _ _, fun _ _ => ⟨rfl, rfl, rfl, rfl⟩, rfl, rfl, ?_⟩
  simp [requestFits]

theorem witness_HandedOnRequestAfterAFall :
    (let s := inState .frozen (demo.handed 4 400)
     s.link.phase = .handedOn ∧ s.link.latch = some 0x4190 ∧ s.opState ≠ .running) ∧
      (let s := { demo.handed 4 400 with link := { (demo.handed 4 400).link with leftRunning := true } }
       s.link.phase = .handedOn ∧ s.link.latch = some 0x4190 ∧ s.link.leftRunning = true) ∧
      (demo.handed 4 400).opState = .running :=
  ⟨⟨rfl, rfl, by simp [inState]⟩, ⟨rfl, rfl, rfl⟩, rfl⟩

theorem witness_RequestStrobeIsJudgedByThePhase :
    (State.reset.opState ≠ .off ∧ State.reset.resetLow = false ∧ State.reset.link.phase = .idle) ∧
      (demo.handed 1 17).link.phase = .handedOn ∧
      (presenting [some .noExchange] 0 .shown demo).link.phase = .answering := ⟨⟨by decide, rfl, rfl⟩, rfl, rfl⟩

theorem presenting_sound {st : Presentation} (h : st = .shown ∨ st = .taking) (s : State) (a : Answer) :
    (presenting [some a] 0 st s).link.Sound := by
  rcases h with rfl | rfl <;> simp [presenting, Link.Sound, Link.cleared]

theorem witness_AnswerStrobeIsJudgedByTheStatus :
    (let s := presenting [some .noExchange] 0 .shown demo
     s.opState ≠ .off ∧ s.resetLow = false ∧ s.link.phase = .answering ∧ s.link.status = .shown ∧ s.link.Sound) ∧
      (presenting [some .noExchange] 0 .taking demo).link.Sound ∧
      (presenting [none] 0 .held demo).link.status = .held ∧ State.reset.link.phase = .idle ∧
      demo.link.phase = .receiving ∧ (demo.handed 1 17).link.phase = .handedOn ∧
      (∀ n ∈ [0, 2047], n ≤ 2047 ∧ (Answer.issue n).word.toNat = 2048 + n ∧
        (Answer.doneUnsaved n).word.toNat = 61440 + n) ∧
      (∀ tag ∈ [1, 15], ∀ p ∈ [0, 120, 127], tag ≤ 15 ∧ p ≤ 127 ∧
        (Answer.tag tag p).word.toNat = 6144 + 128 * tag + p) :=
  ⟨⟨by simp [presenting, demo, tools, plant, ready], rfl, rfl, rfl, presenting_sound (.inl rfl) _ _⟩,
    presenting_sound (.inr rfl) _ _, rfl, rfl, rfl, rfl, by decide, by decide⟩

/-- Word 1 with word 2 released and withheld, and the last word, taken with an OFFERED exchange and without. -/
theorem witness_AnswerTakeAdvances :
    (let s := presenting [some (.issue 12), some (.tag 15 4)] 0 .taking (moving .offered 15)
     s.link.anMark = true ∧ s.resetLow = false ∧ s.link.answers[s.link.position + 1]? = some (some (.tag 15 4)) ∧
       s.link.position ≠ 1) ∧
      (presenting [some (.issue 12), none] 0 .taking (moving .offered 15)).link.answers[0 + 1]? = some none ∧
      (let s := presenting [some (.issue 12), some (.tag 15 4)] 1 .taking (moving .offered 15)
       s.link.anMark = true ∧ s.link.answers[s.link.position + 1]? = none ∧ s.link.position = 1 ∧
         s.exchange = .offered ⟨15, .call 5 12 (some (8, 4))⟩ ∧ s.config = some ⟨24, .fixed, 30⟩) ∧
      (∀ x, (presenting [some .noExchange] 0 .taking demo).exchange ≠ .offered x) :=
  ⟨⟨rfl, rfl, rfl, by simp [presenting]⟩, rfl, ⟨rfl, rfl, rfl, rfl, rfl⟩,
    by simp [presenting, demo, tools]⟩

theorem witness_OneRequestInHand :
    (let s := presenting [some .noExchange] 0 .taking demo
     s.link.Sound ∧ s.opState ≠ .off ∧ s.link.latch = some 0x1011 ∧ s.link.anMark = true ∧
       s.link.position + 1 = s.link.answers.length ∧ ∃ t, exec .answerTake s = .next t) ∧
      ∃ t, exec .vccFall (presenting [some .noExchange] 0 .taking demo) = .next t :=
  ⟨⟨presenting_sound (.inr rfl) _ _, by simp [presenting, demo, tools, plant, ready], rfl, rfl, rfl, _, rfl⟩, _, rfl⟩

/-! ### Witnesses: life accounting -/

theorem chucked_arrives (r : Record) (stamp : Stamp) : (chucked r stamp).RequestArrives := ⟨rfl, rfl, rfl⟩

/-- Charges of 1 and of 4095, to a counted tool whose last unit it takes and to an unlimited one at the greatest
total. -/
theorem witness_ChargeCountsLife :
    (let s := chucked (counted 1 499 .nearEnd) 43
     s.RequestArrives ∧ s.spindle = .holds 9 ∧ 1 ≤ (1#12).toNat ∧ (s.record 9).condition = .nearEnd ∧
       (s.record 9).mode ≠ .uncounted ∧ (s.record 9).remaining - (1#12).toNat = 0) ∧
      (let s := chucked { tool 40 1 .used .spindle 4 with charged := 16777215 } 0
       s.RequestArrives ∧ 1 ≤ (4095#12).toNat ∧ (s.record 9).condition = .used ∧ (s.record 9).mode = .uncounted) := by
  refine ⟨⟨chucked_arrives _ _, rfl, by decide, ?_⟩, chucked_arrives _ _, by decide, ?_⟩ <;> decide +kernel

theorem witness_ChargeOfZeroChangesNothing :
    demo.RequestArrives ∧ (demo.spindle = .holds 8 ∧ (demo.record 8).condition = .used) ∧
      ((chucked (counted 40 460 .nearEnd) 42).record 9).condition = .nearEnd ∧
      (moving .offered 15).spindle = .exchanging ∧ lost.spindle = .unknown ∧ stowed.spindle = .empty ∧
      (moving .offered 15).RequestArrives ∧ lost.RequestArrives ∧ stowed.RequestArrives := by
  refine ⟨arrives _ _ _ _, ⟨rfl, ?_⟩, ?_, rfl, rfl, rfl, arrives _ _ _ _, arrives _ _ _ _, arrives _ _ _ _⟩ <;>
    decide +kernel

/-- A worn and a damaged tool, a charge of 0, and a total that stands at its greatest value. -/
theorem witness_ChargeToARetiredTool :
    (chucked (counted 0 515 .worn) 44).RequestArrives ∧ (chucked (counted 0 515 .worn) 44).spindle = .holds 9 ∧
      (∀ condition ∈ [Condition.worn, .damaged],
        ((chucked (counted 0 16777215 condition) 44).record 9).condition = condition ∧
          ((chucked (counted 0 16777215 condition) 44).record 9).charged = 16777215) ∧ (0#12).toNat = 0 :=
  ⟨chucked_arrives _ _, rfl, by decide +kernel, rfl⟩

theorem witness_SpindleRefusesChargeAndDamage :
    (moving .offered 15).RequestArrives ∧ (moving .offered 15).spindle = .exchanging ∧ lost.RequestArrives ∧
      lost.spindle = .unknown ∧ stowed.RequestArrives ∧ stowed.spindle = .empty :=
  ⟨arrives _ _ _ _, rfl, arrives _ _ _ _, rfl, arrives _ _ _ _, rfl⟩

theorem witness_DamageMarksTheTool :
    demo.RequestArrives ∧ demo.spindle = .holds 8 ∧ (demo.record 8).condition ≠ .damaged ∧
      (chucked (counted 0 520 .damaged) 46).RequestArrives ∧
      ((chucked (counted 0 520 .damaged) 46).record 9).condition = .damaged :=
  ⟨arrives _ _ _ _, rfl, by decide +kernel, chucked_arrives _ _, by decide +kernel⟩

/-! ### Witnesses: selection and the magazine -/

theorem sisters_records :
    sisters.record 14 = tool 230 1 .worn (.pocket 5) 5 ∧
      sisters.record 31 = { tool 230 2 .used (.pocket 9) 9 with hold := true } ∧
      sisters.record 52 = tool 230 3 .nearEnd (.pocket 17) 17 ∧ sisters.record 60 = tool 230 4 .fresh .out 0 ∧
      sisters.callIndex 230 = [14, 31, 52, 60] := by decide +kernel

/-- An empty list; a spindle choice; a pocket candidate behind a retired and a waiting sister; a waiting sister behind a
retired one; and a group of one that is retired. -/
theorem witness_ChoiceFollowsTheClasses :
    demo.callIndex 1 = [] ∧
      First (fun j => (demo.record j).spindleChoice) (demo.callIndex 40) 8 ∧
      ((∀ j ∈ sisters.callIndex 230, ¬ (sisters.record j).spindleChoice) ∧
        First (fun j => (sisters.record j).pocketCandidate) (sisters.callIndex 230) 52 ∧
        (sisters.record 52).location = .pocket 17) ∧
      (let s := after (.holdSet 52) sisters
       (∀ j ∈ s.callIndex 230, ¬ (s.record j).eligible) ∧
         First (fun j => (s.record j).waitingSister) (s.callIndex 230) 31) ∧
      (let s := chucked (counted 0 515 .worn) 44
       s.callIndex 112 ≠ [] ∧ ∀ j ∈ s.callIndex 112, (s.record j).condition = .worn) := by
  obtain ⟨h14, h31, h52, h60, hi⟩ := sisters_records
  have hw : let s := after (.holdSet 52) sisters
      s.record 14 = tool 230 1 .worn (.pocket 5) 5 ∧
        s.record 31 = { tool 230 2 .used (.pocket 9) 9 with hold := true } ∧
        s.record 52 = { tool 230 3 .nearEnd (.pocket 17) 17 with hold := true } ∧
        s.record 60 = tool 230 4 .fresh .out 0 ∧ s.callIndex 230 = [14, 31, 52, 60] := by decide +kernel
  obtain ⟨w14, w31, w52, w60, wi⟩ := hw
  have h8 : demo.record 8 = tool 40 1 .used .spindle 4 := by decide +kernel
  have hd : demo.callIndex 40 = [8] := by decide +kernel
  refine ⟨by decide +kernel, ⟨[], [], hd, ?_⟩, ⟨?_, ⟨[14, 31], [60], hi, ?_⟩, ?_⟩, ⟨?_, [14], [52, 60], wi, ?_⟩,
    by decide +kernel⟩ <;>
    simp [h8, hi, h14, h31, h52, h60, wi, w14, w31, w52, w60, tool, Record.spindleChoice,
      Record.pocketCandidate, Record.waitingSister, Record.eligible, Record.alive]

/-- The greatest tool number, the unknown spindle, and each of the choices. -/
theorem witness_ProbeAnswersWhatACallWouldChoose :
    demo.RequestArrives ∧ lost.RequestArrives ∧ lost.spindle = .unknown ∧ demo.spindle ≠ .unknown ∧
      demo.choose 1 = .unknownTool ∧ demo.choose 2047 = .unknownTool ∧ demo.choose 40 = .inSpindle 1 ∧
      demo.choose 17 = .candidate 5 12 ∧ (chucked (counted 0 515 .worn) 44).choose 112 = .exhausted 1 ∧
      lost.choose 40 = .unavailable 1 :=
  ⟨arrives _ _ _ _, arrives _ _ _ _, rfl, by simp [demo, tools], by decide +kernel, by decide +kernel,
    by decide +kernel, by decide +kernel, by decide +kernel, by decide +kernel⟩

theorem witness_ProbeOfTheSpindle :
    (demo.RequestArrives ∧ demo.spindle = .holds 8 ∧ stowed.RequestArrives ∧ stowed.spindle = .empty ∧
      lost.RequestArrives ∧ lost.spindle = .unknown ∧ (moving .offered 15).RequestArrives ∧
      (moving .offered 15).spindle = .exchanging) ∧
      ∀ op ∈ [OpState.settling, .scanning, .frozen], (inState op demo).opState = op ∧
        (inState op demo).resetLow = false ∧ (inState op demo).link.rqMark = true :=
  ⟨⟨arrives _ _ _ _, rfl, arrives _ _ _ _, rfl, arrives _ _ _ _, rfl, arrives _ _ _ _, rfl⟩,
    by simp [inState]; exact ⟨rfl, rfl⟩⟩

theorem in_ring {s : State} {gone : List Slot} {size : Size} {q : Nat} (h : s.placeable gone size q = true) :
    1 ≤ q ∧ q ≤ s.pockets := by
  simp only [State.placeable, Bool.and_eq_true, decide_eq_true_eq] at h
  exact h.1.1.1

/-- A LARGE tool in the last pocket, beside pocket 1. -/
def beside : State := plant demo 9 { tool 9 1 .used (.pocket 24) 0 with size := .large } 0

/-- The first and the last pocket, each OCCUPIED, RESERVED, UNKNOWN, BLOCKED in turn and FREE. -/
theorem witness_PlacementValidity :
    (demo.pockets = 24 ∧ demo.opState ≠ .off) ∧
      (let s := tools (.pocket 1) (.pocket 24) .empty .idle
       (s.StandsIn 5 1 ∧ ∀ j, s.StandsIn j 1 → j = 5) ∧ s.StandsIn 8 24 ∧ ∀ j, s.StandsIn j 24 → j = 8) ∧
      (let s := tools (.transitIn 1) (.transitBack 24) .exchanging .idle
       s.ReservesPocket 5 1 ∧ s.ReservesPocket 8 24 ∧ ∀ p ∈ [1, 24], ∀ k, ¬ s.StandsIn k p) ∧
      (let s := tools (.unknown (some 1)) (.unknown (some 24)) .unknown .idle
       s.DoubtsPocket 5 1 ∧ s.DoubtsPocket 8 24 ∧
         ∀ p ∈ [1, 24], ∀ k, ¬ s.StandsIn k p ∧ ¬ s.ReservesPocket k p) ∧
      (beside.LargeBeside 1 ∧
        ∀ k, ¬ beside.StandsIn k 1 ∧ ¬ beside.ReservesPocket k 1 ∧ ¬ beside.DoubtsPocket k 1) ∧
      ∀ p ∈ [1, 24], ¬ demo.LargeBeside p ∧
        ∀ k, ¬ demo.StandsIn k p ∧ ¬ demo.ReservesPocket k p ∧ ¬ demo.DoubtsPocket k p := by
  have normal : ∀ k : Slot, (demo.record k).size = .normal := by decide +kernel
  refine ⟨⟨rfl, by simp [demo, tools, plant, ready]⟩, ?_, ?_, ?_, ⟨⟨9, 24, ?_, .inl rfl, .inl ?_⟩, ?_⟩,
    fun p hp => ⟨?_, ?_⟩⟩
  · unfold State.StandsIn
    decide +kernel
  · unfold State.StandsIn State.ReservesPocket
    decide +kernel
  · unfold State.StandsIn State.ReservesPocket State.DoubtsPocket
    decide +kernel
  · decide +kernel
  · unfold State.StandsIn
    decide +kernel
  · unfold State.StandsIn State.ReservesPocket State.DoubtsPocket
    decide +kernel
  · rintro ⟨k, -, hl, -⟩
    simp [normal k] at hl
  · revert p
    unfold State.StandsIn State.ReservesPocket State.DoubtsPocket
    decide +kernel

/-- FIXED with a valid home, with an invalid one and without one; SWAP with a choice and with none, for a CALL from a
source pocket and for a PUTAWAY from the home pocket and from pocket 1. -/
theorem witness_ReturnPocketChoice :
    (demo.config = some ⟨24, .fixed, 30⟩ ∧ (demo.record 8).home = 4 ∧ demo.placeable [8, 5] .normal 4 = true ∧
      demo.placeable [8] .normal 4 = true) ∧
      ((ring8 .fixed).config = some ⟨8, .fixed, 30⟩ ∧ ((ring8 .fixed).record 20).home = 6 ∧
        (ring8 .fixed).placeable [20, 11] .large 6 = false ∧ ((packed .fixed).record 20).home = 0) ∧
      ((ring8 .swap).config = some ⟨8, .swap, 30⟩ ∧ ((ring8 .swap).record 20).size = .large ∧
        (ring8 .swap).placeable [20, 11] .large 7 = true ∧
        (∀ q, (ring8 .swap).placeable [20, 11] .large q = true → stepsRound 8 3 7 ≤ stepsRound 8 3 q) ∧
        (ring8 .swap).placeable [20] .large 7 = true ∧
        (∀ q, (ring8 .swap).placeable [20] .large q = true → stepsRound 8 6 7 ≤ stepsRound 8 6 q)) ∧
      ((packed .swap).config = some ⟨8, .swap, 30⟩ ∧ ((packed .swap).record 20).home = 0 ∧
        (∀ q, (packed .swap).placeable [20] .large q = false) ∧
        (∀ q, (packed .swap).placeable [20, 5] .large q = false)) := by
  have out {s : State} {gone : List Slot} {q : Nat} (hs : s.pockets = 8) (hq : ¬ q < 9) :
      s.placeable gone .large q = false := by
    by_contra h
    have := in_ring (Bool.eq_true_of_not_eq_false h)
    omega
  refine ⟨by decide +kernel, by decide +kernel, ⟨rfl, by decide +kernel, by decide +kernel, ?_, by decide +kernel, ?_⟩,
    rfl, by decide +kernel, ?_, ?_⟩
  · intro q hq
    have h : ∀ q < 9, (ring8 .swap).placeable [20, 11] .large q = true → stepsRound 8 3 7 ≤ stepsRound 8 3 q := by
      decide +kernel
    exact h q (by have := (in_ring hq).2; simp [State.pockets, ring8] at this; omega) hq
  · intro q hq
    have h : ∀ q < 9, (ring8 .swap).placeable [20] .large q = true → stepsRound 8 6 7 ≤ stepsRound 8 6 q := by
      decide +kernel
    exact h q (by have := (in_ring hq).2; simp [State.pockets, ring8] at this; omega) hq
  · intro q
    have h : ∀ q < 9, (packed .swap).placeable [20] .large q = false := by decide +kernel
    by_cases hq : q < 9
    · exact h q hq
    · exact out rfl hq
  · intro q
    have h : ∀ q < 9, (packed .swap).placeable [20, 5] .large q = false := by decide +kernel
    by_cases hq : q < 9
    · exact h q hq
    · exact out rfl hq

/-! ### Witnesses: the exchange -/

/-- Tool numbers 1 and 2047, each open context, and each refusal of an IDLE one. -/
theorem witness_CallRefusals :
    (∀ e ∈ [Exchange.offered ⟨1, .putaway 8 4⟩, .reserved ⟨15, .putaway 8 4⟩ 30, .suspect ⟨15, .putaway 8 4⟩ .reset],
      (tools (.pocket 12) .spindle .unknown e).RequestArrives ∧ (tools (.pocket 12) .spindle .unknown e).exchange = e) ∧
      (demo.RequestArrives ∧ demo.exchange = .idle ∧ demo.spindle ≠ .unknown ∧ demo.choose 1 = .unknownTool ∧
        demo.choose 2047 = .unknownTool ∧ demo.choose 40 = .inSpindle 1) ∧
      (lost.RequestArrives ∧ lost.exchange = .idle ∧ lost.spindle = .unknown) ∧
      (let s := chucked (counted 0 515 .worn) 44
       s.RequestArrives ∧ s.exchange = .idle ∧ s.spindle = .holds 9 ∧ s.choose 112 = .exhausted 1) ∧
      (let s := tools .out .spindle (.holds 8) .idle
       s.RequestArrives ∧ s.exchange = .idle ∧ s.choose 17 = .unavailable 1) ∧
      (let s := ring8 .fixed
       s.RequestArrives ∧ s.choose 111 = .candidate 11 3 ∧ s.spindle = .holds 20 ∧
         s.returnForCall 20 11 3 = .noRoom 6) := by
  refine ⟨fun e _ => ⟨arrives _ _ _ _, rfl⟩, ⟨arrives _ _ _ _, rfl, by simp [demo, tools], ?_⟩,
    ⟨arrives _ _ _ _, rfl, rfl⟩, ⟨⟨rfl, rfl, rfl⟩, rfl, rfl, ?_⟩, ⟨arrives _ _ _ _, rfl, ?_⟩, ⟨rfl, rfl, rfl⟩, ?_⟩ <;>
    decide +kernel

/-- With an outgoing tool and into an EMPTY spindle. -/
theorem witness_CallOpensAnExchange :
    (demo.RequestArrives ∧ demo.SpindleSound ∧ demo.exchange = .idle ∧ demo.choose 17 = .candidate 5 12 ∧
      demo.spindle = .holds 8 ∧ demo.returnForCall 8 5 12 = .chosen 4) ∧
      stowed.RequestArrives ∧ stowed.SpindleSound ∧ stowed.exchange = .idle ∧ stowed.choose 17 = .candidate 5 12 ∧
      stowed.spindle = .empty := by
  refine ⟨⟨arrives _ _ _ _, spindle_sound ?_, rfl, ?_⟩, arrives _ _ _ _, spindle_sound ?_, rfl, ?_⟩ <;> decide +kernel

theorem witness_PutawayRefusals :
    (∀ e ∈ [Exchange.offered ⟨1, .putaway 8 4⟩, .reserved ⟨15, .putaway 8 4⟩ 30, .suspect ⟨15, .putaway 8 4⟩ .reset],
      (tools (.pocket 12) .spindle .unknown e).RequestArrives ∧ (tools (.pocket 12) .spindle .unknown e).exchange = e) ∧
      (stowed.RequestArrives ∧ stowed.exchange = .idle ∧ stowed.spindle = .empty) ∧
      (lost.RequestArrives ∧ lost.exchange = .idle ∧ lost.spindle = .unknown) ∧
      (ring8 .fixed).RequestArrives ∧ (ring8 .fixed).spindle = .holds 20 ∧
        (ring8 .fixed).returnForPutaway 20 = .noRoom 6 :=
  ⟨fun _ _ => ⟨arrives _ _ _ _, rfl⟩, ⟨arrives _ _ _ _, rfl, rfl⟩, ⟨arrives _ _ _ _, rfl, rfl⟩, ⟨rfl, rfl, rfl⟩, rfl,
    by decide +kernel⟩

theorem witness_PutawayOpensAnExchange :
    demo.RequestArrives ∧ demo.SpindleSound ∧ demo.exchange = .idle ∧ demo.spindle = .holds 8 ∧
      demo.returnForPutaway 8 = .chosen 4 := by
  refine ⟨arrives _ _ _ _, spindle_sound ?_, rfl, rfl, ?_⟩ <;> decide +kernel

/-- Tags 1 and 15, a CALL with and without an outgoing tool, and a PUTAWAY: DONE and ABANDON meet each of them. -/
theorem witness_DoneClosesTheExchange :
    ((moving reserved 1).RequestArrives ∧ (moving reserved 1).ExchangeSound ∧
      (moving reserved 1).exchange = .reserved ⟨1, .call 5 12 (some (8, 4))⟩ 30) ∧
      ((moving reserved 15).RequestArrives ∧ (moving reserved 15).ExchangeSound ∧
        (moving reserved 15).exchange = .reserved ⟨15, .call 5 12 (some (8, 4))⟩ 30) ∧
      ((fetching reserved).RequestArrives ∧ (fetching reserved).ExchangeSound ∧
        (fetching reserved).exchange = .reserved ⟨15, .call 5 12 none⟩ 30) ∧
      (putting reserved).RequestArrives ∧ (putting reserved).ExchangeSound ∧
        (putting reserved).exchange = .reserved ⟨15, .putaway 8 4⟩ 30 := by
  refine ⟨⟨arrives _ _ _ _, exchange_sound ?_, rfl⟩, ⟨arrives _ _ _ _, exchange_sound ?_, rfl⟩,
    ⟨arrives _ _ _ _, exchange_sound ?_, rfl⟩, arrives _ _ _ _, exchange_sound ?_, rfl⟩ <;> decide +kernel

theorem witness_AbandonReverts :
    (moving reserved 1).RequestArrives ∧ (moving reserved 1).ExchangeSound ∧
      (fetching reserved).RequestArrives ∧ (fetching reserved).ExchangeSound :=
  ⟨witness_DoneClosesTheExchange.1.1, witness_DoneClosesTheExchange.1.2.1,
    witness_DoneClosesTheExchange.2.2.1.1, witness_DoneClosesTheExchange.2.2.1.2.1⟩

theorem witness_DoneAndAbandonRefused :
    (demo.RequestArrives ∧ demo.exchange = .idle) ∧
      ((moving reserved 15).RequestArrives ∧
        (moving reserved 15).exchange = .reserved ⟨15, .call 5 12 (some (8, 4))⟩ 30 ∧ 15 ≠ (1#12).toNat) ∧
      (doubted 15 .timeout).RequestArrives ∧
        (doubted 15 .timeout).exchange = .suspect ⟨15, .call 5 12 (some (8, 4))⟩ .timeout ∧
        15 = (15#12).toNat ∧ 15 ≠ (14#12).toNat :=
  ⟨⟨arrives _ _ _ _, rfl⟩, ⟨arrives _ _ _ _, rfl, by decide⟩, arrives _ _ _ _, rfl, by decide, by decide⟩

/-- The OFFERED exchange of section 5.8 waiting on its record, word 2 withheld. -/
def offered (mark5 mark8 : Bool) (failed : Option Slot) : State :=
  awaiting (.tag 15 4) mark5 mark8 failed (presenting [some (.issue 12), none] 0 .shown (moving .offered 15))

/-- Outside RUNNING; no record; a slot unmarked; all marked, for each withheld answer; and a store fault for each. -/
theorem witness_AnswerReleaseEndsTheRecord :
    (∀ op ∈ [OpState.frozen, .settling], (inState op (offered true true none)).opState ≠ .running) ∧
      (demo.confirmation = none ∧ ∀ m5 m8 failed, (offered m5 m8 failed).opState = .running) ∧
      ((5, false) ∈ [((5 : Slot), false), (8, true)] ∧
        (offered false true none).confirmation = some ⟨.tag 15 4, [(5, false), (8, true)], none⟩) ∧
      ((offered true true none).confirmation = some ⟨.tag 15 4, [(5, true), (8, true)], none⟩ ∧
        (offered true true none).link.answers.getLast? = some none) ∧
      (∀ w ∈ [Withheld.doneOk 1, .abandoned 15], ∀ failed ∈ [none, some (127 : Slot)],
        let s := awaiting w true true failed (presenting [none] 0 .held demo)
        s.opState = .running ∧ s.confirmation = some ⟨w, [(5, true), (8, true)], failed⟩ ∧
          s.link.answers.getLast? = some none) ∧
      ((offered true false (some 8)).confirmation = some ⟨.tag 15 4, [(5, true), (8, false)], some 8⟩ ∧
        (offered true false (some 8)).link.answers.getLast? = some none ∧
        (offered true false (some 8)).exchange = .offered ⟨15, .call 5 12 (some (8, 4))⟩ ∧
        (offered true false (some 8)).ExchangeSound) := by
  refine ⟨by simp [inState], ⟨rfl, fun _ _ _ => rfl⟩, ⟨by simp, rfl⟩, ⟨rfl, rfl⟩, fun w _ failed _ => ⟨rfl, rfl, rfl⟩,
    rfl, rfl, rfl, exchange_sound ?_⟩
  decide +kernel

/-- A released TAG comes into the sequence; a passed commit of slot 5 marks it. -/
theorem witness_DurableAnswersWaitForTheirCommits :
    (∃ t, exec .answerRelease (offered true true none) = .next t ∧ some (.tag 15 4) ∈ t.link.answers) ∧
      ∃ t r, exec (.commitAttempt .pass .later) (flying .urgent 1 [] [] (offered false true none)) = .next t ∧
        t.confirmation = some r ∧ (5, true) ∈ r.waiting := by
  refine ⟨⟨_, rfl, ?_⟩, _, ⟨.tag 15 4, [(5, true), (8, true)], none⟩, rfl, ?_, by simp⟩
  · decide +kernel
  · decide +kernel

theorem witness_TimerExpirySuspects :
    ((inState .frozen (moving reserved 15)).opState ≠ .off ∧
      (inState .frozen (moving reserved 15)).exchange = .reserved ⟨15, .call 5 12 (some (8, 4))⟩ 30 ∧
      (inState .frozen (moving reserved 15)).ExchangeSound) ∧
      (∀ x timer, (moving .offered 15).exchange ≠ .reserved x timer) ∧
      ∀ x timer, demo.exchange ≠ .reserved x timer := by
  refine ⟨⟨by simp [inState], rfl, exchange_sound ?_⟩, by simp [moving, tools], by simp [demo, tools]⟩
  decide +kernel

theorem witness_ResetActs :
    (demo.opState ≠ .off ∧ demo.resetLow = false ∧ demo.ExchangeSound ∧ demo.exchange = .idle ∧
      demo.config = some ⟨24, .fixed, 30⟩) ∧
      ((moving .offered 15).ExchangeSound ∧ (moving .offered 15).exchange = .offered ⟨15, .call 5 12 (some (8, 4))⟩) ∧
      ((moving reserved 1).ExchangeSound ∧
        (moving reserved 1).exchange = .reserved ⟨1, .call 5 12 (some (8, 4))⟩ 30) ∧
      ((doubted 15 .timeout).ExchangeSound ∧
        (doubted 15 .timeout).exchange = .suspect ⟨15, .call 5 12 (some (8, 4))⟩ .timeout) ∧
      demo.link.phase ≠ .answering ∧
      (let s := presenting [some (.issue 12), none] 1 .held (moving .offered 15)
       s.opState ≠ .off ∧ s.resetLow = false ∧ s.ExchangeSound ∧ s.link.phase = .answering) ∧
      (let s := inState .scanning State.reset
       s.opState ≠ .off ∧ s.resetLow = false ∧ s.ExchangeSound ∧ s.config = none) := by
  refine ⟨⟨by simp [demo, tools, plant, ready], rfl, exchange_sound ?_, rfl, rfl⟩, ⟨exchange_sound ?_, rfl⟩,
    ⟨exchange_sound ?_, rfl⟩, ⟨exchange_sound ?_, rfl⟩, by simp [demo, tools, plant, ready],
    ⟨by simp [presenting, moving, tools, plant, ready], rfl, exchange_sound ?_, rfl⟩,
    by simp [inState], rfl, exchange_sound ?_, rfl⟩ <;> decide +kernel

/-! ### Witnesses: the host commands -/

theorem witness_CommandsRefusedByTheState :
    (hostCode? .release = some 5 ∧ (let s := { demo with host := { HostPort.powerOn with busy := true } }
      s.opState ≠ .off ∧ s.resetLow = false ∧ s.host.busy = true)) ∧
      (State.reset.CommandTaken ∧ State.reset.opState ≠ .running) ∧ demo.CommandTaken ∧
      (0#8 = 0 ∧ 13 ≤ (13#8).toNat ∧ 13 ≤ (255#8).toNat) ∧
      (∀ r, { State.reset with host := { HostPort.powerOn with result := r } }.host.result = r) ∧
      State.reset.opState ≠ .off :=
  ⟨⟨rfl, by simp [demo, tools, plant, ready], rfl, rfl⟩, ⟨⟨by decide, rfl, rfl⟩, by decide⟩, taken _ _ _ _,
    ⟨rfl, by decide, by decide⟩, fun _ => rfl, by decide⟩

theorem asking_taken (slot : Byte) (number : BitVec 16) (position : Byte) :
    (asking slot number position demo).CommandTaken := ⟨by simp [asking, demo, tools, plant, ready], rfl, rfl⟩

/-- ARG_SLOT 128 and 255, the vacant slots 0 and 127, and the occupied slot 5. -/
theorem witness_FetchNewDiscard :
    (∀ b ∈ [128#8, 255], (asking b 0 0 demo).CommandTaken ∧ 128 ≤ (asking b 0 0 demo).host.argSlot.toNat) ∧
      (∀ k ∈ [(0 : Slot), 127], (demo.record k).condition = .vacant) ∧
      (asking 5 0 0 demo).opState = .running ∧ (asking 5 0 0 demo).host.argSlot.toNat = (5 : Slot).val ∧
      (demo.record 5).condition ≠ .vacant := by
  refine ⟨fun b hb => ⟨asking_taken _ _ _, ?_⟩, by decide +kernel, rfl, rfl, by decide +kernel⟩
  simp at hb
  rcases hb with rfl | rfl <;> decide

theorem editing_taken (w : WorkFields) (ws : WorkState) (at5 at8 : Location) (sp : Spindle) (e : Exchange) :
    (editing w ws (tools at5 at8 sp e)).CommandTaken := ⟨by simp [editing, tools, plant, ready], rfl, rfl⟩

/-- A state with a work record passes the steps of STORE before step 5. -/
theorem work_fresh {s : State} {w : WorkFields} {k : Slot} :
    (editing w (.fetched k (s.slot k).stamp) s).WorkOn k ∧ ¬ (editing w (.fetched k (s.slot k).stamp) s).Stale k := by
  refine ⟨.inl ⟨_, rfl⟩, ?_⟩
  rintro (⟨t, h, hne⟩ | ⟨h, -⟩)
  · cases h
    exact hne rfl
  · simp [editing] at h

/-- Step 1 and step 2; step 3 for a FETCHED and for a NEW record; step 4 at tool numbers 0 and 2048; step 5. -/
theorem witness_StoreRefusals_first :
    (demo.CommandTaken ∧ demo.host.workState = .empty) ∧
      (let s := inState .frozen (editing WorkFields.zero (.new 127) demo)
       s.WorkOn 127 ∧ s.opState ≠ .running) ∧
      (editing WorkFields.zero (.fetched 5 9) demo).Stale 5 ∧ (editing WorkFields.zero (.new 5) demo).Stale 5 ∧
      (∀ n ∈ [0#16, 2048], let s := editing (sheet n 1 3 0) (.fetched 5 (demo.slot 5).stamp) demo
        s.CommandTaken ∧ s.WorkOn 5 ∧ ¬ s.Stale 5 ∧ ¬ s.host.work.Accepted s.pockets (s.record 5).location) ∧
      (let s := editing (sheet 40 1 3 0) (.fetched 5 (demo.slot 5).stamp) demo
       s.WorkOn 5 ∧ ¬ s.Stale 5 ∧ s.host.work.Accepted s.pockets (s.record 5).location ∧
         s.RankShared 5 (s.host.work.toStore (s.record 5))) := by
  refine ⟨⟨taken _ _ _ _, rfl⟩, ⟨.inr rfl, by simp [inState]⟩, .inl ⟨9, rfl, by decide +kernel⟩,
    .inr ⟨rfl, by decide +kernel⟩, fun n hn => ⟨editing_taken _ _ _ _ _ _, work_fresh.1, work_fresh.2, ?_⟩,
    work_fresh.1, work_fresh.2, ?_, ?_⟩
  · intro h
    have := h.1
    simp at hn
    rcases hn with rfl | rfl <;> simp [editing, sheet] at this
  · simp [WorkFields.Accepted, editing, sheet, WorkFields.zero]
  · refine ⟨8, by decide, ?_⟩
    decide +kernel

/-- Steps 6, 7 and 8: a named slot given another tool number, slot 8 stored where slot 5 stands, and slot 5 stored into
a spindle that holds slot 8. -/
theorem witness_StoreRefusals_last :
    (let s := editing (sheet 2047 1 4 12) (.fetched 5 ((moving .offered 15).slot 5).stamp) (moving .offered 15)
     s.CommandTaken ∧ s.WorkOn 5 ∧ ¬ s.Stale 5 ∧ s.host.work.Accepted s.pockets (s.record 5).location ∧
       ¬ s.RankShared 5 (s.host.work.toStore (s.record 5)) ∧ s.StoreLocked 5 (s.host.work.toStore (s.record 5))) ∧
      (let s := editing (sheet 40 8 1 12) (.fetched 8 (demo.slot 8).stamp) demo
       s.CommandTaken ∧ s.WorkOn 8 ∧ ¬ s.Stale 8 ∧ s.host.work.Accepted s.pockets (s.record 8).location ∧
         ¬ s.RankShared 8 (s.host.work.toStore (s.record 8)) ∧ ¬ s.StoreLocked 8 (s.host.work.toStore (s.record 8)) ∧
         s.StoreConflicts 8 (s.host.work.toStore (s.record 8))) ∧
      (let s := editing (sheet 17 1 2 0) (.fetched 5 (demo.slot 5).stamp) demo
       s.CommandTaken ∧ s.WorkOn 5 ∧ ¬ s.Stale 5 ∧ s.host.work.Accepted s.pockets (s.record 5).location ∧
         ¬ s.RankShared 5 (s.host.work.toStore (s.record 5)) ∧ ¬ s.StoreLocked 5 (s.host.work.toStore (s.record 5)) ∧
         ¬ s.StoreConflicts 5 (s.host.work.toStore (s.record 5)) ∧
         s.StoreSpindleTaken 5 (s.host.work.toStore (s.record 5))) := by
  have idle {s : State} {k : Slot} {new : Record} (h : s.exchange = .idle) : ¬ s.StoreLocked k new := by
    rintro ⟨⟨x, hx, -⟩, -⟩
    simp [h, Exchange.open?] at hx
  refine ⟨⟨editing_taken _ _ _ _ _ _, work_fresh.1, work_fresh.2, ?_, ?_, ?_⟩,
    ⟨editing_taken _ _ _ _ _ _, work_fresh.1, work_fresh.2, ?_, ?_, idle rfl, ?_⟩,
    editing_taken _ _ _ _ _ _, work_fresh.1, work_fresh.2, ?_, ?_, idle rfl, ?_, rfl, .inl ⟨8, by decide, rfl⟩⟩
  · unfold WorkFields.Accepted
    decide +kernel
  · unfold State.RankShared
    decide +kernel
  · refine ⟨⟨_, rfl, by decide⟩, .inl ?_⟩
    decide +kernel
  · simp [WorkFields.Accepted, editing, sheet, WorkFields.zero, State.pockets, demo, tools, plant, ready]
  · unfold State.RankShared
    decide +kernel
  · exact ⟨12, rfl, by decide +kernel⟩
  · simp [WorkFields.Accepted, editing, sheet, WorkFields.zero]
  · unfold State.RankShared
    decide +kernel
  · rintro ⟨p, hp, -⟩
    simp [WorkFields.toStore, WorkFields.location, editing, sheet, WorkFields.zero] at hp

/-- Any record that an IDLE exchange lets a fresh edit of slot `k` store is accepted, given its ranges, its rank, and a
place that is free. -/
theorem accepted {s : State} {w : WorkFields} {k : Slot} (hr : s.opState = .running) (hx : s.exchange = .idle)
    (hw : w.Accepted s.pockets (s.record k).location)
    (hk : ∀ j, j ≠ k → (s.record j).condition ≠ .vacant →
      ¬ ((s.record j).tool = w.tool.toNat ∧ (s.record j).rank = w.rank.toNat))
    (hp : w.location.pocketPart.all (s.placeable [k] (w.toStore (s.record k)).size) = true)
    (hs : w.location = .spindle → (∀ j, s.spindle = .holds j → j = k) ∧ s.spindle ≠ .exchanging) :
    (editing w (.fetched k (s.slot k).stamp) s).StoreAccepted k (w.toStore (s.record k)) where
  work := work_fresh.1
  running := hr
  fresh := work_fresh.2
  range := hw
  fields := rfl
  rank := by
    rintro ⟨j, hj, hv, h⟩
    exact hk j hj hv h
  unlocked := by
    rintro ⟨⟨x, h, -⟩, -⟩
    have h : s.exchange.open? = some x := h
    simp [hx, Exchange.open?] at h
  placed := by
    rintro ⟨p, h, -, hn⟩
    have hn : s.placeable [k] (w.toStore (s.record k)).size p = false := hn
    have h : w.location = .pocket p := h
    simp [h, Location.pocketPart, hn] at hp
  spindle := by
    rintro ⟨h, ⟨j, hj, he⟩ | he | ⟨-, he⟩⟩
    · exact hj ((hs h).1 j he)
    · exact (hs h).2 he
    · have he : s.exchange.suspect? ≠ none := he
      simp [hx, Exchange.suspect?] at he

/-- Slot 5 to OUT under the greatest tool number; slot 8 out of the spindle, to UNKNOWN and to the last pocket; and
slot 5 into an EMPTY spindle. -/
theorem witness_StoreTakesTheRecord :
    (let s := editing (sheet 2047 8 3 0) (.fetched 5 (demo.slot 5).stamp) demo
     s.CommandTaken ∧ s.StoreAccepted 5 ((sheet 2047 8 3 0).toStore (demo.record 5)) ∧ s.spindle ≠ .holds 5) ∧
      (let s := editing (sheet 1 1 6 24) (.fetched 8 (demo.slot 8).stamp) demo
       s.CommandTaken ∧ s.StoreAccepted 8 ((sheet 1 1 6 24).toStore (demo.record 8)) ∧ s.spindle = .holds 8 ∧
         (sheet 1 1 6 24).location = .unknown (some 24)) ∧
      (let s := editing (sheet 1 1 1 24) (.fetched 8 (demo.slot 8).stamp) demo
       s.CommandTaken ∧ s.StoreAccepted 8 ((sheet 1 1 1 24).toStore (demo.record 8)) ∧
         (sheet 1 1 1 24).location = .pocket 24) ∧
      (let s := editing (sheet 1 1 2 0) (.fetched 5 (stowed.slot 5).stamp) stowed
       s.CommandTaken ∧ s.StoreAccepted 5 ((sheet 1 1 2 0).toStore (stowed.record 5)) ∧
         (sheet 1 1 2 0).location = .spindle) := by
  refine ⟨⟨editing_taken _ _ _ _ _ _, accepted rfl rfl ?_ ?_ ?_ ?_, ?_⟩,
    ⟨editing_taken _ _ _ _ _ _, accepted rfl rfl ?_ ?_ ?_ ?_, rfl, by decide⟩,
    ⟨editing_taken _ _ _ _ _ _, accepted rfl rfl ?_ ?_ ?_ ?_, by decide⟩,
    editing_taken _ _ _ _ _ _, accepted rfl rfl ?_ ?_ ?_ ?_, by decide⟩
  all_goals first | decide +kernel | (unfold WorkFields.Accepted; decide +kernel)

/-- The bounds of the tool number and of the position on both sides; a list too short, and a member. -/
theorem witness_LocateReadsTheIndex :
    demo.CommandTaken ∧
      (∀ n ∈ [0#16, 2048], ¬ (1 ≤ (asking 0 n 1 demo).host.argTool.toNat ∧
        (asking 0 n 1 demo).host.argTool.toNat ≤ 2047)) ∧
      (∀ p ∈ [0#8, 9], ¬ (1 ≤ (asking 0 1 p demo).host.argPos.toNat ∧ (asking 0 1 p demo).host.argPos.toNat ≤ 8)) ∧
      (∀ n ∈ [1, 2047], (demo.callIndex n).length < 1) ∧ (demo.callIndex 17)[1 - 1]? = some 5 :=
  ⟨taken _ _ _ _, by simp [asking], by simp [asking], by decide +kernel, by decide +kernel⟩

/-- ARG_SLOT 128; the vacant slot 127; slot 5 in the machine; slot 8 UNKNOWN, named and not named. -/
theorem witness_ReleaseVacatesTheSlot :
    ((asking 128 0 0 demo).CommandTaken ∧ (asking 128 0 0 demo).opState = .running ∧
      128 ≤ (asking 128 0 0 demo).host.argSlot.toNat) ∧
      ((asking 127 0 0 demo).host.argSlot.toNat = (127 : Slot).val ∧ (demo.record 127).condition = .vacant ∧
        (demo.record 5).location = .pocket 12) ∧
      ((doubted 15 .timeout).Named 8 ∧ ((doubted 15 .timeout).record 8).location = .unknown (some 4) ∧
        (asking 8 0 0 (doubted 15 .timeout)).CommandTaken) ∧
      (lost.record 8).condition ≠ .vacant ∧ (lost.record 8).location = .unknown none ∧ ¬ lost.Named 8 := by
  refine ⟨⟨asking_taken _ _ _, rfl, by decide⟩, ⟨rfl, ?_⟩,
    ⟨⟨_, rfl, by decide⟩, ?_, ⟨by simp [asking, doubted, tools, plant, ready], rfl, rfl⟩⟩, ?_, ?_, ?_⟩
  · decide +kernel
  · decide +kernel
  · decide +kernel
  · decide +kernel
  · rintro ⟨x, h, -⟩
    simp [lost, tools, Exchange.open?] at h

theorem witness_ResolveClosesTheExchange :
    (demo.CommandTaken ∧ demo.opState = .running ∧ demo.exchange.suspect? = none) ∧
      (moving reserved 15).exchange.suspect? = none ∧ (doubted 1 .reset).CommandTaken ∧
      (doubted 1 .reset).exchange = .suspect ⟨1, .call 5 12 (some (8, 4))⟩ .reset ∧ (doubted 1 .reset).ExchangeSound :=
  ⟨⟨taken _ _ _ _, rfl, rfl⟩, rfl, taken _ _ _ _, rfl, exchange_sound (by decide +kernel)⟩

/-- Allowed; and not, for each of its conditions: an EMPTY spindle, a SUSPECT exchange, a tool that says SPINDLE. -/
theorem witness_DeclareSpindleEmpty :
    (lost.CommandTaken ∧ lost.opState = .running ∧ lost.spindle = .unknown ∧ lost.exchange.suspect? = none ∧
      ∀ k, (lost.record k).condition ≠ .vacant → (lost.record k).location ≠ .spindle) ∧
      stowed.spindle ≠ .unknown ∧ (doubted 15 .timeout).exchange.suspect? ≠ none ∧
      ((demo.record 8).condition ≠ .vacant ∧ (demo.record 8).location = .spindle) :=
  ⟨⟨taken _ _ _ _, rfl, rfl, rfl, by decide +kernel⟩, by simp [stowed, tools],
    by simp [doubted, tools, Exchange.suspect?],
    by decide +kernel⟩

/-- Slot 5 faulted, outside the queue or waiting in it. -/
theorem witness_RetryStoreQueuesAgain :
    let faulted (q : CommitQueue) : State :=
      { asking 5 0 0 demo with
        image := demo.image.set 5 { demo.slot 5 with storeFault := true, dirty := true }, queue := q }
    ((asking 5 0 0 demo).CommandTaken ∧ (asking 5 0 0 demo).host.argSlot.toNat = (5 : Slot).val ∧
      (demo.slot 5).storeFault = false ∧ 128 ≤ (asking 255 0 0 demo).host.argSlot.toNat) ∧
      (((faulted ⟨[], []⟩).slot 5).storeFault = true ∧ (faulted ⟨[], []⟩).awaitsCommit 5 = false) ∧
      ((faulted ⟨[], [.slot 5]⟩).slot 5).storeFault = true ∧ (faulted ⟨[], [.slot 5]⟩).awaitsCommit 5 = true := by
  refine ⟨⟨asking_taken _ _ _, rfl, ?_, by decide⟩, ?_, ?_⟩ <;> decide +kernel

/-- What CommitSound asks of a quiet state whose copies B are erased. -/
theorem commit_sound {s : State} (hh : s.imageHeld = true) (hq : s.queue = ⟨[], []⟩) (hf : s.flight = none)
    (hc : s.cfgNewest = s.cfgCopies.newestValid.map Prod.fst)
    (hk : ∀ k : Slot, (s.slot k).dirty = false ∧ (s.slot k).storeFault = false ∧
      ((s.newest[k] = none ∧ s.slotCopies[k] = ⟨.erased, .erased⟩ ∧ s.record k = Record.vacant) ∨
        (s.newest[k] = some ⟨.a, 0⟩ ∧ s.slotCopies[k] = ⟨.valid (s.record k) 0, .erased⟩))) : s.CommitSound where
  distinct := by simp [State.QueueDistinct, hq]
  runs := by simp [State.FlightRuns, hf]
  idle h := by simp [hh] at h
  dirty _ k := by simp [(hk k).1, (hk k).2.1, State.awaitsCommit, State.inFlight, hf, hq, CommitQueue.holds]
  durable _ k _ := by
    rcases (hk k).2.2 with ⟨-, h, hr⟩ | ⟨-, h⟩
    · simp [State.Durable, h, hr, CopyPair.newestValid, CopyPair.bothErased]
    · simp [State.Durable, h, CopyPair.newestValid]
  newest _ k := by
    rcases (hk k).2.2 with ⟨hn, h, -⟩ | ⟨hn, h⟩ <;> simp [hn, h, CopyPair.newestValid]
  cfgNewest _ := hc
  flight f h := by simp [hf] at h

theorem demo_commit_sound : demo.CommitSound :=
  commit_sound rfl rfl rfl rfl (by decide +kernel)

/-- Drained; not, for an entry that waits, and outside RUNNING; and a waiting FLUSH that is due. -/
theorem witness_FlushWaitsForTheDrain :
    (demo.CommandTaken ∧ demo.opState = .running ∧ demo.queue.urgent = [] ∧ demo.queue.normal = [] ∧
      demo.flight = none) ∧
      (flying .normal 1 [] [] demo).flight ≠ none ∧ (inState .frozen demo).opState ≠ .running ∧
      (let s := { demo with host := { HostPort.powerOn with busy := true } }
       s.host.busy = true ∧ s.opState = .running ∧ s.queue.urgent = [] ∧ s.queue.normal = [] ∧ s.flight = none ∧
         s.CommitSound) :=
  ⟨⟨taken _ _ _ _, rfl, rfl, rfl, rfl⟩, by simp [flying], by simp [inState],
    rfl, rfl, rfl, rfl, rfl, commit_sound rfl rfl rfl rfl (by decide +kernel)⟩

/-- The staging registers of the Host Port. -/
def staging (p policy timeout : Byte) (s : State) : State :=
  { s with host := { HostPort.powerOn with stageP := p, stagePolicy := policy, stageTimeout := timeout } }

/-- Counts out of range by one; the least and the greatest count; a tool beyond the ring; a LARGE tool with a neighbour;
an open exchange; the applied values, and others. -/
theorem witness_ConfigStoreAppliesTheStaging :
    ((staging 24 0 30 demo).CommandTaken ∧ (staging 24 0 30 demo).opState = .running) ∧
      (∀ c, ¬ (staging 7 0 30 demo).host.Stages c) ∧ (∀ c, ¬ (staging 121 0 30 demo).host.Stages c) ∧
      (staging 8 1 1 demo).host.Stages ⟨8, .swap, 1⟩ ∧ (staging 120 0 255 demo).host.Stages ⟨120, .fixed, 255⟩ ∧
      demo.BeyondRing 8 ∧
      (let s := beside
       ¬ s.BeyondRing 24 ∧ (plant s 10 (tool 10 1 .used (.pocket 1) 0) 0).Crowded 24) ∧
      (¬ demo.BeyondRing 24 ∧ ¬ demo.Crowded 24 ∧ demo.exchange = .idle ∧ demo.config = some ⟨24, .fixed, 30⟩) ∧
      (moving .offered 15).exchange ≠ .idle ∧ demo.config ≠ some ⟨120, .fixed, 255⟩ := by
  have beyond {s : State} {P : Nat} (h : ∀ k : Slot,
      (s.record k).location.pocketPart.all (fun p => decide (p ≤ P)) = true ∧ (s.record k).home ≤ P) :
      ¬ s.BeyondRing P := by
    rintro ⟨k, -, ⟨p, hp, hlt⟩ | hlt⟩
    · have := (h k).1
      simp [hp] at this
      omega
    · have := (h k).2
      omega
  refine ⟨⟨⟨by simp [staging, demo, tools, plant, ready], rfl, rfl⟩, rfl⟩, ?_, ?_, ?_, ?_, ?_, ⟨beyond ?_, ?_⟩,
    ⟨beyond ?_, ?_, rfl, rfl⟩, by simp [moving, tools], by simp [demo, tools, plant, ready]⟩
  · rintro c ⟨h, -⟩
    simp [staging] at h
  · rintro c ⟨h, -⟩
    simp [staging] at h
  · simp [HostPort.Stages, staging]
  · simp [HostPort.Stages, staging]
  · exact ⟨5, by decide +kernel, .inl ⟨12, by decide +kernel, by decide⟩⟩
  · decide +kernel
  · exact ⟨9, 10, 24, by decide, by decide +kernel, by decide +kernel, by decide +kernel, .inl (by decide +kernel),
      .inr (by decide +kernel)⟩
  · decide +kernel
  · rintro ⟨k, j, p, -, -, -, hl, -⟩
    have : ∀ k : Slot, (demo.record k).size = .normal := by decide +kernel
    simp [this k] at hl

/-! ### Witnesses: register and flag writes -/

/-- The first and the last plain position and POCKET_SELECT, a read-only one, and one beyond the window; and commands by
their codes, the first, the last and those that name none. -/
theorem witness_RegisterWrites :
    (demo.opState ≠ .off ∧ demo.resetLow = false) ∧ ((8#8).getLsbD 3 = true ∧ (0xF7#8).getLsbD 3 = false) ∧
      (∀ a ∈ [0x06#10, 0x11, 0x37], a.toNat ∈ plainPositions ∧ (Instr.registerWrite a 0).wellFormed = true) ∧
      (∀ c ∈ [(Instr.fetch, 1#8), (.configStore, 12), (.unknownCommand 0, 0), (.unknownCommand 13, 13),
        (.unknownCommand 255, 255)], c.1.wellFormed = true ∧ hostCode? c.1 = some c.2) ∧
      ∀ a ∈ [0x00#10, 0x38, 0x3FF], a.toNat ∉ plainPositions ∧ (Instr.registerWrite a 0).wellFormed = true :=
  ⟨⟨by simp [demo, tools, plant, ready], rfl⟩, by decide, by decide, by decide, by decide⟩

/-- Outside RUNNING; the vacant slot 127; slot 8, no duplicate; and slot 9 beside slot 8 with its number and rank. -/
theorem witness_FlagWrites :
    ((inState .frozen demo).opState ≠ .running ∧ (inState .frozen demo).opState ≠ .off ∧
      (inState .frozen demo).resetLow = false) ∧
      (demo.opState = .running ∧ demo.resetLow = false ∧ (demo.record 127).condition = .vacant ∧
        (demo.record 8).condition ≠ .vacant ∧
        ¬ ∃ j, j < (8 : Slot) ∧ (demo.record j).condition ≠ .vacant ∧ (demo.record j).tool = (demo.record 8).tool ∧
          (demo.record j).rank = (demo.record 8).rank) ∧
      (let s := plant demo 9 (tool 40 1 .used .out 0) 0
       (s.record 9).condition ≠ .vacant ∧ ∃ j, j < (9 : Slot) ∧ (s.record j).condition ≠ .vacant ∧
         (s.record j).tool = (s.record 9).tool ∧ (s.record j).rank = (s.record 9).rank) :=
  ⟨⟨by simp [inState], by simp [inState], rfl⟩, ⟨rfl, rfl, by decide +kernel, by decide +kernel, by decide +kernel⟩,
    by decide +kernel⟩

/-- A vacant and an occupied slot; LOWEST_ATTN without ATTN, and with it on slots 0 and 127; and every state that a
snapshot register names: the operating states, the link faults, the spindle states, the exchange contexts with each
movement, and the states of the work record. -/
theorem witness_FlagsAndAttentionRead :
    (demo.opState ≠ .off ∧ (demo.record 127).condition = .vacant ∧ (demo.record 5).condition ≠ .vacant ∧
      demo.CommitSound ∧ demo.imageHeld = true) ∧
      (∀ k, (demo.slot k).attn = false) ∧
      (∀ i ∈ [(0 : Slot), 127], ((demo.setAttn i true).slot i).attn = true ∧
        ∀ j, j < i → ((demo.setAttn i true).slot j).attn = false) ∧
      (∀ op ∈ [OpState.settling, .scanning, .running, .frozen],
        (inState op demo).opState = op ∧ (inState op demo).opState ≠ .off) ∧
      (∀ f, { demo with link := { demo.link with fault := f } }.link.fault = f) ∧
      (demo.spindle = .holds 8 ∧ stowed.spindle = .empty ∧ (moving .offered 15).spindle = .exchanging ∧
        lost.spindle = .unknown) ∧
      (demo.exchange = .idle ∧ (moving .offered 15).exchange = .offered ⟨15, .call 5 12 (some (8, 4))⟩ ∧
        (fetching reserved).exchange = .reserved ⟨15, .call 5 12 none⟩ 30 ∧
        (putting .offered).exchange = .offered ⟨15, .putaway 8 4⟩ ∧
        ∀ cause, (doubted 1 cause).exchange = .suspect ⟨1, .call 5 12 (some (8, 4))⟩ cause) ∧
      ∀ ws ∈ [WorkState.empty, .fetched 127 0xFFFF, .new 0], (editing WorkFields.zero ws demo).host.workState = ws ∧
        (editing WorkFields.zero ws demo).opState ≠ .off ∧
      ∀ o ∈ [0x39#10, 0x3F, 0x40, 0x3FF], 0x39 ≤ o.toNat :=
  ⟨⟨by simp [demo, tools, plant, ready], by decide +kernel, by decide +kernel, demo_commit_sound, rfl⟩,
    by decide +kernel, by decide +kernel, by simp [inState], fun _ => rfl, ⟨rfl, rfl, rfl, rfl⟩,
    ⟨rfl, rfl, rfl, rfl, fun _ => rfl⟩, fun _ _ => ⟨rfl, by simp [editing, demo, tools, plant, ready], by decide⟩⟩

/-! ### Witnesses: the Commit Engine and the scan -/

theorem witness_HandingTable :
    (([.slot 3, .cfg] ++ [.slot 12] : List Entry).Nodup) ∧ Entry.cfg ∈ [.slot 3, Entry.cfg] ∧
      Entry.slot 12 ∈ [Entry.slot 12] ∧ Entry.slot 127 ∉ [.slot 3, Entry.cfg] ∧ Entry.slot 127 ∉ [Entry.slot 12] := by
  decide

/-- A slot at the head of each part, with its newest copy A, B and none, and CFG; and each state that takes nothing. -/
theorem witness_CommitStartTakesTheHead :
    (demo.opState = .running ∧ demo.flight = none ∧
      CommitQueue.TakesHead ⟨[.slot 5, .slot 8], []⟩ (.slot 5) .urgent ⟨[.slot 8], []⟩ ∧
      CommitQueue.TakesHead ⟨[], [.slot 5]⟩ (.slot 5) .normal ⟨[], []⟩ ∧
      demo.newest[(5 : Slot)] = some ⟨.a, 0⟩ ∧ demo.newest[(0 : Slot)] = none ∧
      (let s := { demo with newest := demo.newest.set 5 (some ⟨.b, 3⟩) }
       s.newest[(5 : Slot)] = some ⟨.b, 3⟩) ∧
      demo.config = some ⟨24, .fixed, 30⟩) ∧
      (inState .frozen demo).opState ≠ .running ∧ (flyingCfg 1 demo).flight ≠ none ∧
      demo.queue.urgent = [] ∧ demo.queue.normal = [] := by
  refine ⟨⟨rfl, rfl, .inl ⟨rfl, rfl, rfl⟩, .inr ⟨rfl, rfl, rfl, rfl⟩, ?_, ?_, ?_, rfl⟩, by simp [inState],
    by simp [flyingCfg], rfl, rfl⟩ <;> decide +kernel

/-- A flight of slot 5 that its record awaits, with its stamp at the confirm-from stamp, 32767 past it and 32768 past
it; a flight that no record awaits; and a flight of CFG. -/
theorem witness_CommitAttemptPasses :
    (let s := flying .urgent 1 [] [] (offered false true none)
     (∃ f, s.flight = some f ∧ f.content = .slot 5 (s.record 5) 10) ∧
       s.confirmation = some ⟨.tag 15 4, [(5, false), (8, true)], none⟩ ∧ s.confirmFrom[(5 : Slot)] = some 10) ∧
      ((10#16 - 10).toNat ≤ 32767 ∧ (32777#16 - 10).toNat = 32767 ∧ 32767 < (32778#16 - 10).toNat) ∧
      (∀ c, (flying .normal 1 [] [] demo).confirmation = some c → (5, false) ∉ c.waiting) ∧
      ∃ f, (flyingCfg 3 demo).flight = some f ∧ f.content = .cfg ⟨24, .fixed, 30⟩ :=
  ⟨⟨⟨_, rfl, by decide +kernel⟩, rfl, by decide +kernel⟩, by decide,
    by simp [flying, demo, tools, plant, ready, State.reset], _, rfl, rfl⟩

/-- Attempts 1, 2 and 3, for a slot and for CFG, with the confirm-from mark set and clear, and with a first and a second
failure notice; and no flight. -/
theorem witness_CommitAttemptFails :
    (∀ n ∈ [1, 2], ∃ f, (flying .urgent n [] [] demo).flight = some f ∧ f.attempt < 3) ∧
      (∀ failed ∈ [none, some (8 : Slot)], let s := flying .urgent 3 [] [.slot 8] (offered false false failed)
        ∃ f, s.flight = some f ∧ 3 ≤ f.attempt ∧ f.content = .slot 5 (s.record 5) (s.slot 5).stamp ∧
          f.confirmSet = false ∧ s.confirmation = some ⟨.tag 15 4, [(5, false), (8, false)], failed⟩ ∧
          s.confirmFrom[(5 : Slot)] = some 10) ∧
      (let s := flying .urgent 3 [.slot 5] [] demo
       let u : State := { s with flight := s.flight.map (fun f => { f with confirmSet := true }) }
       ∃ f, u.flight = some f ∧ 3 ≤ f.attempt ∧ f.confirmSet = true) ∧
      (∃ f, (flyingCfg 3 demo).flight = some f ∧ 3 ≤ f.attempt ∧ f.content = .cfg ⟨24, .fixed, 30⟩) ∧
      (∃ t, exec (.commitAttempt .fail .later) (flyingCfg 3 demo) = .next t) ∧ demo.flight = none := by
  refine ⟨fun n hn => ⟨_, rfl, ?_⟩, fun failed hf => ⟨_, rfl, by simp, rfl, rfl, rfl, ?_⟩, ⟨_, rfl, by simp, rfl⟩,
    ⟨_, rfl, by simp, rfl⟩, ⟨_, rfl⟩, rfl⟩
  · simp at hn
    rcases hn with rfl | rfl <;> decide
  · simp at hf
    rcases hf with rfl | rfl <;> decide +kernel

/-- The array of section 10.5, an array whose configuration is newest valid, and an erased one; the slot that the first
pass of that scan takes, newest in copy A, and in copy B at the last generation. -/
theorem witness_ScanCompletes :
    (array105.opState = .scanning ∧ array105.cfgCopies.newestValid = none) ∧
      (let s := { array105 with cfgCopies := ⟨.valid ⟨30, .fixed, 30⟩ 3, .valid ⟨24, .swap, 5⟩ 2⟩ }
       s.opState = .scanning ∧ s.cfgCopies.newestValid = some (⟨.a, 3⟩, ⟨30, .fixed, 30⟩)) ∧
      (inState .scanning State.reset).cfgCopies.newestValid = none ∧
      ((array105.slotCopies[(15 : Slot)]).newestValid.map Prod.fst = some ⟨.a, 0⟩ ∧
        (let copies : CopyPair Record := ⟨.invalid, .valid (tool 42 1 .used (.transitBack 3) 3) 3⟩
         let s : State := { array105 with slotCopies := array105.slotCopies.set (15 : Slot) copies }
         (s.slotCopies[(15 : Slot)]).newestValid.map Prod.fst = some ⟨.b, 3⟩)) :=
  ⟨⟨rfl, by decide⟩, ⟨rfl, by decide⟩, by decide, by decide +kernel, by decide +kernel⟩

/-- The least ring, and a ring of 24, over the array of section 10.5: its slot 2 names pocket 26, every pocket that it
names is numbered from 1, and its fifth pass finds slot 6 beside LARGE slot 4. -/
theorem witness_ScanRepairsEstablishTheLaws :
    (8 ≤ 8 ∧ scanRepairs 8 array105.loadedImage = scanRepairs 8 array105.loadedImage) ∧ 8 ≤ 24 ∧
      (array105.loadedImage[(2 : Slot)]).fields.location.pocketPart = some 26 ∧
      (∀ k : Slot, (array105.loadedImage[k]).fields.numbered) ∧
      ((array105.loadedImage[(4 : Slot)]).fields.size = .large ∧
        (array105.loadedImage[(4 : Slot)]).fields.location = .pocket 10 ∧
        (array105.loadedImage[(6 : Slot)]).fields.location = .pocket (neighbourAfter 24 10)) := by
  have numbered : ∀ k : Slot, (array105.loadedImage[k]).fields.location.pocketPart.all (fun p => decide (1 ≤ p)) := by
    decide +kernel
  refine ⟨⟨le_rfl, rfl⟩, by decide, by decide +kernel, fun k p hp => ?_, by decide +kernel⟩
  have h := numbered k
  rw [hp] at h
  exact of_decide_eq_true h

/-! ### Witnesses: the invariants -/

/-- The laws of R56 and R64 where at most one tool stands in a pocket. -/
theorem lawful_one {P : Nat} {size : Slot → Size} {place : Slot → Option Nat} (i : Slot) (o : Option Nat)
    (h : ∀ k, place k = if k = i then o else none)
    (ho : ∀ p ∈ o, 1 ≤ p ∧ p ≤ P ∧ ringBefore P p ≠ p ∧ ringAfter P p ≠ p) : Lawful P size place where
  one j k p hj hk := by
    rw [h] at hj hk
    split at hj <;> split at hk <;> simp_all
  ring k p hk := by
    rw [h] at hk
    split at hk
    · exact ⟨(ho p hk).1, (ho p hk).2.1⟩
    · simp at hk
  large j k p hj _ := by
    rw [h] at hj
    split at hj
    · rw [h]
      have hp := ho p hj
      split <;> simp_all [eq_comm]
    · simp at hj

/-- The state before the CALL, with that CALL waiting, and the RESERVED exchange with its DONE waiting. -/
theorem witness_StepKeepsTheTable :
    (let s := { demo with pending := [.call 17 .inStep] }
     s.TableSound ∧ ∃ t, step s = .next t) ∧
      (let s := { moving reserved 15 with pending := [.done 15] }
       s.TableSound ∧ ∃ t, step s = .next t) := by
  refine ⟨⟨table_sound ?_ ?_ ?_ ?_ ?_ ?_ ?_ rfl, _, rfl⟩, table_sound ?_ ?_ ?_ ?_ ?_ ?_ ?_ rfl, _, rfl⟩ <;> decide +kernel

theorem witness_StepKeepsTheCommitLaw :
    (let s := { demo with pending := [.holdSet 8] }
     s.CommitSound ∧ ∃ t, step s = .next t) :=
  ⟨commit_sound rfl rfl rfl rfl (by decide +kernel), _, rfl⟩

theorem witness_StepKeepsTheLink :
    (let s := { demo with pending := [.probe 17 .inStep] }
     s.link.Sound ∧ ∃ t, step s = .next t) := by
  refine ⟨?_, _, rfl⟩
  simp [demo, tools, plant, ready, Link.Sound, Link.cleared]

/-- The laws of the places for a state whose records and copies A name pockets of the ring, under the defaults. -/
theorem places_sound {s : State} (hn : Lawful s.pockets (fun k => (s.record k).size) s.pocketNow)
    (hr : Lawful s.pockets (fun k => (s.record k).size) s.pocketIfReverted)
    (hm : Lawful s.pockets (fun k => (s.record k).size) s.pocketIfMoved)
    (hp : ∀ k : Slot, (s.record k).home ≤ s.pockets ∧
      ∀ p ∈ (s.record k).location.pocketPart, 1 ≤ p ∧ p ≤ s.pockets)
    (hc : ∀ k : Slot, s.slotCopies[k] = ⟨.erased, .erased⟩ ∨ s.slotCopies[k] = ⟨.valid (s.record k) 0, .erased⟩)
    (hg : ∀ c, s.config = some c → c = ⟨24, .fixed, 30⟩) (ha : s.cfgCopies = ⟨.erased, .erased⟩)
    (hf : s.flight = none) (ht : ∀ x n, s.exchange = .reserved x n → 1 ≤ n ∧ n ≤ 255) : s.PlacesSound := by
  have numbered (k : Slot) : (s.record k).numbered := fun p h => ((hp k).2 p h).1
  refine ⟨hn, hr, hm, numbered, fun k => ?_, fun c h => ?_, ?_, fun f h => ?_,
    fun k => ⟨(hp k).1, fun p h => ((hp k).2 p h).2⟩, ht⟩
  · rcases hc k with h | h <;> rw [h]
    · exact ⟨trivial, trivial⟩
    · exact ⟨numbered k, trivial⟩
  · rw [hg c h]
    exact ⟨by decide, by decide, by decide, by decide⟩
  · rw [ha]
    exact ⟨trivial, trivial⟩
  · simp [hf] at h

/-- The RESERVED exchange with its DONE waiting, and the completion of a scan. -/
theorem witness_StepKeepsThePlaces :
    (let s := { moving reserved 15 with pending := [.done 15] }
     s.TableSound ∧ s.PlacesSound ∧ ∃ t, step s = .next t) ∧
      (let s := { inState .scanning State.reset with pending := [.scanComplete] }
       s.TableSound ∧ s.PlacesSound ∧ ∃ t, step s = .next t) := by
  refine ⟨⟨witness_StepKeepsTheTable.2.1,
      places_sound (lawful_one 0 none ?_ (by simp)) (lawful_one 5 (some 12) ?_ ?_) (lawful_one 8 (some 4) ?_ ?_) ?_ ?_
        (by rintro c ⟨⟩; rfl) rfl rfl (by rintro x n ⟨⟩; decide), _, rfl⟩,
    table_sound ?_ ?_ ?_ ?_ ?_ ?_ ?_ rfl,
    places_sound (lawful_one 0 none ?_ (by simp)) (lawful_one 0 none ?_ (by simp)) (lawful_one 0 none ?_ (by simp)) ?_ ?_
      (by rintro c ⟨⟩) rfl rfl (by rintro x n ⟨⟩), _, rfl⟩ <;> decide +kernel

end Sys2Proof.Tests
end

/-! ## The queue of commands: a step takes its front, and no command touches the rest (O1, O2) -/

namespace Sys2Proof.Machine

/-! ### The queue's rest under the decisions of the link -/

@[simp] theorem State.decideCall_pending (s : State) (n : Nat) : (s.decideCall n).pending = s.pending := by
  unfold State.decideCall; (repeat' split) <;> simp

@[simp] theorem State.decidePutaway_pending (s : State) : s.decidePutaway.pending = s.pending := by
  unfold State.decidePutaway; (repeat' split) <;> simp

@[simp] theorem State.decideDone_pending (s : State) (n : Nat) : (s.decideDone n).pending = s.pending := by
  unfold State.decideDone; (repeat' split) <;> simp

@[simp] theorem State.decideAbandon_pending (s : State) (n : Nat) : (s.decideAbandon n).pending = s.pending := by
  unfold State.decideAbandon; (repeat' split) <;> simp

@[simp] theorem State.decideCharge_pending (s : State) (n : Nat) : (s.decideCharge n).pending = s.pending := by
  unfold State.decideCharge; split <;> simp

@[simp] theorem State.decideDamage_pending (s : State) : s.decideDamage.pending = s.pending := by
  unfold State.decideDamage; split <;> simp

@[simp] theorem State.decideProbe_pending (s : State) (n : Nat) : (s.decideProbe n).pending = s.pending := rfl

@[simp] theorem State.decideRequest_pending (s : State) (k : BitVec 4) (o : BitVec 12) :
    (s.decideRequest k o).pending = s.pending := by
  unfold State.decideRequest; split <;> simp

/-- R98, R100: the latch leaves the queue of commands, whatever decision it hands the word to. -/
theorem State.latchRequest_pending {d : State → State} (hd : ∀ u, (d u).pending = u.pending) (s : State)
    (k : BitVec 4) (o : BitVec 12) (t : Timing) : (s.latchRequest k o t d).pending = s.pending := by
  unfold State.latchRequest
  dsimp only
  (repeat' split) <;> simp [hd]

@[simp] theorem State.takeHandedOn_pending (s : State) : s.takeHandedOn.pending = s.pending := by
  unfold State.takeHandedOn; (repeat' split) <;> simp

/-! ### Under the edges, the exchange and the supply -/

@[simp] theorem State.rqstbLeading_pending (s : State) : s.rqstbLeading.pending = s.pending := by
  unfold State.rqstbLeading; (repeat' split) <;> simp

@[simp] theorem State.antakeLeading_pending (s : State) : s.antakeLeading.pending = s.pending := by
  unfold State.antakeLeading; (repeat' split) <;> simp

@[simp] theorem State.reportTake_pending (s : State) : s.reportTake.pending = s.pending := by
  unfold State.reportTake; split <;> rfl

@[simp] theorem State.takeAnswer_pending (s : State) : s.takeAnswer.pending = s.pending := by
  unfold State.takeAnswer; dsimp only; (repeat' split) <;> simp

@[simp] theorem State.expireTimer_pending (s : State) : s.expireTimer.pending = s.pending := by
  unfold State.expireTimer; (repeat' split) <;> simp

@[simp] theorem State.resetExchange_pending (s : State) : s.resetExchange.pending = s.pending := by
  unfold State.resetExchange; split <;> simp

@[simp] theorem State.assertReset_pending (s : State) : s.assertReset.pending = s.pending := by
  unfold State.assertReset; (repeat' split) <;> simp

@[simp] theorem State.supplyRises_pending (s : State) : s.supplyRises.pending = s.pending := by
  unfold State.supplyRises; split <;> simp [State.volatileCleared]

@[simp] theorem State.freeze_pending (s : State) : s.freeze.pending = s.pending := by simp [State.freeze]

@[simp] theorem State.supplyFalls_pending (s : State) : s.supplyFalls.pending = s.pending := by
  unfold State.supplyFalls; split <;> simp

@[simp] theorem State.losePower_pending (s : State) : s.losePower.pending = s.pending := by
  unfold State.losePower; split <;> rfl

@[simp] theorem State.endSettle_pending (s : State) : s.endSettle.pending = s.pending := by
  unfold State.endSettle; (repeat' split) <;> simp

@[simp] theorem State.completeScan_pending (s : State) : s.completeScan.pending = s.pending := by
  unfold State.completeScan; split
  · exact State.startFlight_pending _
  · rfl

/-! ### Under the host's commands and writes -/

/-- R117: a command write leaves the queue of commands, whatever the body of the command. -/
theorem State.issue_pending {b : State → State} (hb : ∀ u, (b u).pending = u.pending) (s : State) (code : Byte) :
    (s.issue code b).pending = s.pending := by
  unfold State.issue; (repeat' split) <;> simp [hb]

theorem State.whenRunning_pending {b : State → State} (hb : ∀ u, (b u).pending = u.pending) (s : State) :
    (s.whenRunning b).pending = s.pending := by
  unfold State.whenRunning; split <;> simp [hb]

@[simp] theorem State.takeFetch_pending (s : State) : s.takeFetch.pending = s.pending := by
  unfold State.takeFetch; (repeat' split) <;> simp

@[simp] theorem State.takeNew_pending (s : State) : s.takeNew.pending = s.pending := by
  unfold State.takeNew; (repeat' split) <;> simp

@[simp] theorem State.takeStore_pending (s : State) : s.takeStore.pending = s.pending := by
  unfold State.takeStore; (repeat' split) <;> simp

@[simp] theorem State.takeDiscard_pending (s : State) : s.takeDiscard.pending = s.pending := rfl

@[simp] theorem State.takeRelease_pending (s : State) : s.takeRelease.pending = s.pending := by
  unfold State.takeRelease; (repeat' split) <;> simp

@[simp] theorem State.takeLocate_pending (s : State) : s.takeLocate.pending = s.pending := by
  unfold State.takeLocate; dsimp only; (repeat' split) <;> simp

@[simp] theorem State.takeResolveMoved_pending (s : State) : s.takeResolveMoved.pending = s.pending := by
  unfold State.takeResolveMoved; split <;> simp

@[simp] theorem State.takeResolveNotMoved_pending (s : State) : s.takeResolveNotMoved.pending = s.pending := by
  unfold State.takeResolveNotMoved; split <;> simp

@[simp] theorem State.takeDeclareSpindleEmpty_pending (s : State) :
    s.takeDeclareSpindleEmpty.pending = s.pending := by
  unfold State.takeDeclareSpindleEmpty; split <;> simp

@[simp] theorem State.takeRetryStore_pending (s : State) : s.takeRetryStore.pending = s.pending := by
  unfold State.takeRetryStore; (repeat' split) <;> simp

@[simp] theorem State.takeFlush_pending (s : State) : s.takeFlush.pending = s.pending := by
  unfold State.takeFlush; split <;> simp

@[simp] theorem State.completeFlush_pending (s : State) : s.completeFlush.pending = s.pending := by
  unfold State.completeFlush; split <;> simp

@[simp] theorem State.takeConfigStore_pending (s : State) : s.takeConfigStore.pending = s.pending := by
  unfold State.takeConfigStore; (repeat' split) <;> simp

@[simp] theorem State.writeCommand_pending (s : State) (code : Byte) : (s.writeCommand code).pending = s.pending := by
  unfold State.writeCommand
  split <;> exact State.issue_pending (by simp [State.whenRunning_pending]) _ _

@[simp] theorem State.writeStatus_pending (s : State) (d : Byte) : (s.writeStatus d).pending = s.pending := by
  unfold State.writeStatus; split <;> rfl

@[simp] theorem State.writeIntPending_pending (s : State) (d : Byte) : (s.writeIntPending d).pending = s.pending := by
  unfold State.writeIntPending; split <;> rfl

@[simp] theorem State.writeIntEnable_pending (s : State) (d : Byte) : (s.writeIntEnable d).pending = s.pending := by
  unfold State.writeIntEnable; split <;> rfl

@[simp] theorem State.writeWindow_pending (s : State) (a : BitVec 10) (d : Byte) :
    (s.writeWindow a d).pending = s.pending := by
  unfold State.writeWindow; (repeat' split) <;> simp

@[simp] theorem State.writeHold_pending (s : State) (k : Slot) (v : Bool) : (s.writeHold k v).pending = s.pending := by
  unfold State.writeHold; split <;> simp

@[simp] theorem State.writeMeasure_pending (s : State) (k : Slot) (v : Bool) :
    (s.writeMeasure k v).pending = s.pending := by
  unfold State.writeMeasure; split <;> simp

@[simp] theorem State.writeAttn_pending (s : State) (k : Slot) (v : Bool) : (s.writeAttn k v).pending = s.pending := by
  unfold State.writeAttn; split <;> simp

/-! ### The statements -/

/-- No command ends in a fault or a refusal: every arm of the dispatch answers with a next state. -/
theorem exec_completes (c : Instr) (s : State) : ∃ t, exec c s = .next t := by
  cases c <;> exact ⟨_, rfl⟩

/-- Log 10: the effect of a command leaves the queue of commands as it was. -/
theorem exec_pending {c : Instr} {s t : State} (h : exec c s = .next t) : t.pending = s.pending := by
  cases c <;> rw [← Host.Outcome.next.inj h]
  case call | putaway | done | abandon | charge | damage | probe | unknownRequest =>
    exact State.latchRequest_pending (by simp) _ _ _ _
  case fetch | store | discard | locate | flush => exact State.issue_pending (by simp) _ _
  case new | release | resolveMoved | resolveNotMoved | declareSpindleEmpty | retryStore | configStore =>
    exact State.issue_pending (State.whenRunning_pending (by simp)) _ _
  case commitAttempt v notice => cases notice <;> simp
  all_goals simp

/-- Settles O1: both clauses are the two branches of `step`, on the front of the queue. -/
theorem stepRunsTheFrontCommand : Obligations.StepRunsTheFrontCommand :=
  ⟨fun _ _ _ => rfl, fun s h => by unfold step; rw [h]⟩

/-- Settles O2: every command answers, and its answer keeps the queue of commands. -/
theorem everyCommandCompletes : Obligations.EveryCommandCompletes := fun c s => by
  obtain ⟨t, h⟩ := exec_completes c s
  exact ⟨t, h, exec_pending h⟩

end Sys2Proof.Machine

/-! ## The table: records, exchange, spindle, ranks and tags (O56) -/

namespace Sys2Proof.Machine

/-! ### What the table depends on -/

/-- A state with the records, the exchange, the spindle and the next tag of a sound table, whose copies and flight are
sound, has a sound table. -/
theorem State.TableSound.of_records_eq {s t : State} (h : s.TableSound) (hr : ∀ k, t.record k = s.record k)
    (hx : t.exchange = s.exchange) (hs : t.spindle = s.spindle) (hn : t.nextTag = s.nextTag)
    (hc : ∀ k : Slot, (t.slotCopies[k]).satisfies Record.sound) (hf : ∀ f, t.flight = some f → f.content.sound) :
    t.TableSound := by
  obtain ⟨⟨image, -, -⟩, ⟨distinct, occupied, movingIn, movingBack, doubted, exchanging, suspected⟩, spindle, ranks,
    tags⟩ := h
  refine ⟨⟨?_, hc, hf⟩, ⟨?_, ?_, ?_, ?_, ?_, ?_, ?_⟩, ?_, ?_, ?_⟩ <;>
    simp only [State.SpindleSound, State.RanksSound, State.TagsSound, ranksBelow, hr, hx, hs, hn] <;> assumption

/-- The parts of the state that the table depends on. -/
def State.tableFields (s : State) : Image × Exchange × Spindle × Nat × Vector (CopyPair Record) 128 × Option Flight :=
  (s.image, s.exchange, s.spindle, s.nextTag, s.slotCopies, s.flight)

/-- A state that agrees with a sound one in all that the table depends on. -/
theorem State.TableSound.congr {s t : State} (h : s.TableSound) (e : t.tableFields = s.tableFields) :
    t.TableSound := by
  simp only [State.tableFields, Prod.mk.injEq] at e
  obtain ⟨image, exchange, spindle, nextTag, copies, flight⟩ := e
  exact h.of_records_eq (State.record_eq s t image) exchange spindle nextTag (by rw [copies]; exact h.records.copies)
    (by rw [flight]; exact h.records.flight)

/-- R12: a slot whose location is not that of a vacant slot is not VACANT. -/
theorem Record.sound.occupied {r : Record} (h : r.sound) (hl : r.location ≠ .nowhere) : r.condition ≠ .vacant :=
  fun e => hl (by rw [h.2.1 e]; rfl)

/-! ### A part that holds nothing -/

/-- R12, R38, R61, R74: a table of vacant slots with no exchange open and the spindle UNKNOWN is sound. -/
theorem State.TableSound.of_vacant {s : State} (hr : ∀ k, s.record k = Record.vacant) (hx : s.exchange = .idle)
    (hs : s.spindle = .unknown) (hn : s.nextTag = 1) (hf : s.flight = none)
    (hc : ∀ k : Slot, (s.slotCopies[k]).satisfies Record.sound) : s.TableSound where
  records := ⟨fun k => by rw [hr]; exact Record.sound_vacant, hc, by simp [hf]⟩
  exchange := by constructor <;> simp [hr, hx, hs, Exchange.open?, Exchange.moving?, Exchange.suspect?, Record.vacant]
  spindle k := by simp [hr, hs, Record.vacant]
  ranks j k hk := absurd (by rw [hr]; rfl) hk
  tags := by simp [State.TagsSound, hn, hx, Exchange.open?]

theorem State.record_blank {s : State} (h : s.image = Vector.replicate 128 SlotState.blank) (k : Slot) :
    s.record k = Record.vacant := by
  simp [State.record, State.slot, h, SlotState.blank]

/-- R1, R167: what is lost with the power leaves a sound table. -/
theorem State.TableSound.volatileCleared {s : State} (h : s.TableSound) (op : OpState) (settle : Bool) :
    (s.volatileCleared op settle).TableSound :=
  .of_vacant (State.record_blank rfl) rfl rfl rfl rfl h.records.copies

/-! ### One slot rewritten -/

/-- The slots of a state whose image is another one's with slot `k` replaced. -/
theorem State.slot_of_image_set {s t : State} {k : Slot} {x : SlotState} (h : t.image = s.image.set k x) (j : Slot) :
    t.slot j = if j = k then x else s.slot j := by
  rw [State.slot_eq (s.setSlot k x) t h]
  split
  · rename_i e; rw [e, State.slot_setSlot_self]
  · rename_i e; exact State.slot_setSlot_other s x e

theorem State.record_of_image_set {s t : State} {k : Slot} {x : SlotState} (h : t.image = s.image.set k x)
    (hx : x.fields = s.record k) (j : Slot) : t.record j = s.record j := by
  rw [State.record, State.slot_of_image_set h]
  split
  · rename_i e; rw [hx, e]
  · rfl

theorem State.claim_record_self (s : State) (k : Slot) (new : Record) (c : CommitClass) :
    (s.claim k new c).record k = new := by
  unfold State.record
  rw [State.claim_slot_self]
  split
  · rename_i e; exact e.symm
  · rfl

/-- The records of `t` are those of `s`, but that slot `k` has the fields `new`. -/
def State.Wrote (s t : State) (k : Slot) (new : Record) : Prop :=
  t.record k = new ∧ ∀ j, j ≠ k → t.record j = s.record j

theorem State.wrote_claim (s : State) (k : Slot) (new : Record) (c : CommitClass) :
    s.Wrote (s.claim k new c) k new :=
  ⟨s.claim_record_self k new c, fun _ hj => State.claim_record_other s k new c hj⟩

/-- R35: `new` may stand in slot `k` beside the other records: where a lower slot has its tool number and rank, it has
HOLD set, and so has every higher slot with them. -/
def State.RankFits (s : State) (k : Slot) (new : Record) : Prop :=
  new.condition ≠ .vacant → ∀ j, (s.record j).condition ≠ .vacant → (s.record j).tool = new.tool →
    (s.record j).rank = new.rank → (j < k → new.hold = true) ∧ (k < j → (s.record j).hold = true)

/-- R74, R75: `new` may stand in slot `k` under the open exchange: it is in transit as the slot was, and a named slot
stays where it is. -/
structure State.TransitFits (s : State) (k : Slot) (new : Record) : Prop where
  inward : ∀ p, new.location = .transitIn p ↔ (s.record k).location = .transitIn p
  back : ∀ p, new.location = .transitBack p ↔ (s.record k).location = .transitBack p
  named : s.Named k → new.location = (s.record k).location ∧ new.condition ≠ .vacant

theorem State.RanksSound.wrote {s t : State} {k : Slot} {new : Record} (h : s.RanksSound) (hw : s.Wrote t k new)
    (hn : s.RankFits k new) : t.RanksSound := by
  obtain ⟨hk, ho⟩ := hw
  rintro i j hj ⟨hlt, hi, htool, hrank⟩
  by_cases ek : j = k
  · subst ek
    rw [hk] at hj htool hrank ⊢
    rw [ho i hlt.ne] at hi htool hrank
    exact (hn hj i hi htool hrank).1 hlt
  · rw [ho j ek] at hj htool hrank ⊢
    by_cases ei : i = k
    · subst ei
      rw [hk] at hi htool hrank
      exact (hn hi j hj htool.symm hrank.symm).2 hlt
    · rw [ho i ei] at hi htool hrank
      exact h i j hj ⟨hlt, hi, htool, hrank⟩

theorem State.Named.of_incoming {s : State} {x : OpenExchange} {k : Slot} {p : Nat} (hx : s.exchange.open? = some x)
    (hk : x.movement.incoming = some (k, p)) : s.Named k := ⟨x, hx, by simp [Movement.named, hk]⟩

theorem State.Named.of_outgoing {s : State} {x : OpenExchange} {k : Slot} {p : Nat} (hx : s.exchange.open? = some x)
    (hk : x.movement.outgoing = some (k, p)) : s.Named k := ⟨x, hx, by simp [Movement.named, hk]⟩

theorem Exchange.open?_of_suspect? {e : Exchange} {x : OpenExchange} (h : e.suspect? = some x) : e.open? = some x := by
  cases e <;> simp_all [Exchange.suspect?, Exchange.open?]

theorem Exchange.open?_of_moving? {e : Exchange} {x : OpenExchange} (h : e.moving? = some x) : e.open? = some x := by
  cases e <;> simp_all [Exchange.moving?, Exchange.open?]

theorem State.ExchangeSound.wrote {s t : State} {k : Slot} {new : Record} (h : s.ExchangeSound) (hw : s.Wrote t k new)
    (hn : s.TransitFits k new) (hx : t.exchange = s.exchange)
    (hs : t.spindle = s.spindle ∨ (s.spindle ≠ .exchanging ∧ t.spindle ≠ .exchanging ∧ s.exchange.suspect? = none)) :
    t.ExchangeSound := by
  obtain ⟨hk, ho⟩ := hw
  constructor
  · rw [hx]; exact h.distinct
  · rw [hx]
    intro x e j hj
    by_cases ej : j = k
    · subst ej; rw [hk, Record.occupied_iff]; exact (hn.named ⟨x, e, hj⟩).2
    · rw [ho j ej]; exact h.occupied x e j hj
  · intro j p
    rw [hx, ← h.movingIn]
    by_cases ej : j = k
    · subst ej; rw [hk]; exact hn.inward p
    · rw [ho j ej]
  · intro j p
    rw [hx, ← h.movingBack]
    by_cases ej : j = k
    · subst ej; rw [hk]; exact hn.back p
    · rw [ho j ej]
  · rw [hx]
    intro x e j p hj
    have hopen := Exchange.open?_of_suspect? e
    by_cases ej : j = k
    · subst ej
      have hnamed : s.Named j := hj.elim (State.Named.of_incoming hopen) (State.Named.of_outgoing hopen)
      rw [hk, (hn.named hnamed).1]; exact h.doubted x e j p hj
    · rw [ho j ej]; exact h.doubted x e j p hj
  · rw [hx, ← h.exchanging]
    rcases hs with e | ⟨e1, e2, -⟩
    · rw [e]
    · simp [e1, e2]
  · rw [hx]
    intro e
    rcases hs with e' | ⟨-, -, e'⟩
    · rw [e']; exact h.suspected e
    · exact absurd e' e

theorem State.SpindleSound.wrote {s t : State} {k : Slot} {new : Record} (h : s.SpindleSound) (hw : s.Wrote t k new)
    (hk : new.location = .spindle ↔ t.spindle = .holds k)
    (ho : ∀ j, j ≠ k → (t.spindle = .holds j ↔ s.spindle = .holds j)) : t.SpindleSound := by
  intro j
  by_cases e : j = k
  · subst e; rw [hw.1]; exact hk
  · rw [hw.2 j e, ho j e]; exact h j

/-- A claim of one slot whose new fields fit beside the others keeps the table. -/
theorem State.TableSound.claim {s : State} (h : s.TableSound) {k : Slot} {new : Record} (c : CommitClass)
    (hs : new.sound) (hr : s.RankFits k new) (hx : s.TransitFits k new)
    (hl : new.location = .spindle ↔ (s.record k).location = .spindle) : (s.claim k new c).TableSound := by
  have hw := s.wrote_claim k new c
  constructor
  · refine ⟨fun j => ?_, by rw [State.claim_slotCopies]; exact h.records.copies,
      by rw [State.claim_flight]; exact h.records.flight⟩
    by_cases e : j = k
    · subst e; rw [hw.1]; exact hs
    · rw [hw.2 j e]; exact h.records.image j
  · exact h.exchange.wrote hw hx (by simp) (.inl (by simp))
  · exact h.spindle.wrote hw (by rw [hl, State.claim_spindle]; exact h.spindle k) (by simp)
  · exact h.ranks.wrote hw hr
  · simpa [State.TagsSound] using h.tags

/-- Fields that keep the place, the tool number and the rank of slot `k` fit, when HOLD stays where R35 asks it. -/
theorem State.TableSound.rankFits {s : State} (h : s.TableSound) {k : Slot} {new : Record}
    (hk : (s.record k).condition ≠ .vacant) (ht : new.tool = (s.record k).tool) (hr : new.rank = (s.record k).rank)
    (hh : (∃ j, ranksBelow s.record j k) → new.hold = true) : s.RankFits k new := by
  intro _ j hj htool hrank
  rw [ht] at htool
  rw [hr] at hrank
  exact ⟨fun hlt => hh ⟨j, hlt, hj, htool, hrank⟩, fun hlt => h.ranks k j hj ⟨hlt, hk, htool.symm, hrank.symm⟩⟩

/-- A claim of a non-vacant slot that keeps its place, its tool number and its rank. -/
theorem State.TableSound.claim_in_place {s : State} (h : s.TableSound) {k : Slot} {new : Record} (c : CommitClass)
    (hk : (s.record k).condition ≠ .vacant) (hs : new.sound) (hv : new.condition ≠ .vacant)
    (hl : new.location = (s.record k).location) (ht : new.tool = (s.record k).tool)
    (hr : new.rank = (s.record k).rank) (hh : (∃ j, ranksBelow s.record j k) → new.hold = true) :
    (s.claim k new c).TableSound :=
  h.claim c hs (h.rankFits hk ht hr hh) ⟨fun p => by rw [hl], fun p => by rw [hl], fun _ => ⟨hl, hv⟩⟩ (by rw [hl])

/-- R35: a slot with a lower one of its tool number and rank has HOLD set. -/
theorem State.TableSound.hold_of_ranksBelow {s : State} (h : s.TableSound) {k : Slot}
    (hk : (s.record k).condition ≠ .vacant) : (∃ j, ranksBelow s.record j k) → (s.record k).hold = true :=
  fun ⟨j, hj⟩ => h.ranks j k hk hj

/-- R61: the slot that the spindle HOLDS is not VACANT. -/
theorem State.TableSound.holds_occupied {s : State} (h : s.TableSound) {k : Slot} (hk : s.spindle = .holds k) :
    (s.record k).condition ≠ .vacant :=
  (h.records.image k).occupied (by rw [(h.spindle k).2 hk]; simp)

/-! ### Life accounting and the flags -/

/-- R19–R24: a CHARGE keeps the table. -/
theorem State.TableSound.decideCharge {s : State} (h : s.TableSound) (n : Nat) : (s.decideCharge n).TableSound := by
  cases hs : s.spindle with
  | holds k =>
    rw [State.decideCharge_holds s n k hs]
    have hk := h.holds_occupied hs
    obtain ⟨sound, occupied, frame⟩ := Record.afterCharge_sound (h.records.image k) hk n
    have hc := h.claim_in_place (chargeClass (s.record k) ((s.record k).afterCharge n)) hk sound occupied
      (by rw [frame]) (by rw [frame]) (by rw [frame]) (by rw [frame]; exact h.hold_of_ranksBelow hk)
    exact hc.congr rfl
  | empty | unknown | exchanging =>
    rw [State.decideCharge, hs]; exact h.congr rfl

/-- R26: a DAMAGE keeps the table. -/
theorem State.TableSound.decideDamage {s : State} (h : s.TableSound) : s.decideDamage.TableSound := by
  cases hs : s.spindle with
  | holds k =>
    rw [State.decideDamage_holds s k hs]
    have hk := h.holds_occupied hs
    have hc := h.claim_in_place .urgent hk (Record.sound_damaged (h.records.image k) hk) (by simp) rfl rfl rfl
      (h.hold_of_ranksBelow hk)
    exact hc.congr rfl
  | empty | unknown | exchanging =>
    rw [State.decideDamage, hs]; exact h.congr rfl

/-- R35, R138: a write of HOLD keeps the table: a clear is taken only where no lower slot has the tool number and
rank. -/
theorem State.TableSound.hold {s : State} (h : s.TableSound) {k : Slot} {v : Bool}
    (hk : (s.record k).occupied = true) (hv : (v || !s.repairDuplicate k) = true) :
    (s.claim k { s.record k with hold := v } .normal).TableSound := by
  rw [Record.occupied_iff] at hk
  refine h.claim_in_place _ hk (Record.sound_of_place (h.records.image k) hk _ _ v _) hk rfl rfl rfl fun hj => ?_
  have := (State.repairDuplicate_iff s k).2 hj
  simpa [this] using hv

/-- R138: a write of MEASURE keeps the table. -/
theorem State.TableSound.measure {s : State} (h : s.TableSound) {k : Slot} (v : Bool)
    (hk : (s.record k).occupied = true) : (s.claim k { s.record k with measure := v } .normal).TableSound := by
  rw [Record.occupied_iff] at hk
  exact h.claim_in_place _ hk (Record.sound_of_place (h.records.image k) hk _ _ _ v) hk rfl rfl rfl
    (h.hold_of_ranksBelow hk)

/-- R139: ATTN is no part of the table. -/
theorem State.TableSound.setAttn {s : State} (h : s.TableSound) (k : Slot) (v : Bool) : (s.setAttn k v).TableSound :=
  h.of_records_eq (s.record_setAttn k v) rfl rfl rfl h.records.copies h.records.flight

/-- R12, R129: a RELEASE keeps the table: the slot is in no pocket, not in the spindle and not in transit. -/
theorem State.TableSound.vacate {s : State} (h : s.TableSound) {k : Slot}
    (hl : ((s.record k).location == .out || (s.record k).location.isUnknown) = true)
    (hn : s.exchange.names k = false) : ((s.claim k Record.vacant .normal).setAttn k false).TableSound := by
  have away : ∀ l, l = (s.record k).location → l ≠ .spindle ∧ (∀ p, l ≠ .transitIn p) ∧ ∀ p, l ≠ .transitBack p := by
    rintro l rfl
    cases e : (s.record k).location <;> simp [e, Location.isUnknown] at hl ⊢
  obtain ⟨hsp, hin, hback⟩ := away _ rfl
  refine State.TableSound.setAttn ?_ k false
  refine h.claim .normal Record.sound_vacant (fun hv => absurd rfl hv) ⟨fun p => ?_, fun p => ?_, fun hk => ?_⟩ ?_
  · simp [Record.vacant, hin p]
  · simp [Record.vacant, hback p]
  · rw [← Exchange.names_iff, hn] at hk; simp at hk
  · simp [Record.vacant, hsp]

/-- R15, R130: a RETRY_STORE changes no persistent field. -/
theorem State.TableSound.retry {s : State} (h : s.TableSound) (k : Slot) : (s.retry k).TableSound := by
  have same (x : SlotState) (hx : x.fields = s.record k) (j : Slot) : (s.setSlot k x).record j = s.record j :=
    State.record_of_image_set rfl hx j
  unfold State.retry
  split
  · exact h.of_records_eq (same _ rfl) rfl rfl rfl h.records.copies h.records.flight
  · exact h.of_records_eq (same _ rfl) rfl rfl rfl h.records.copies h.records.flight

/-! ### STORE -/

/-- R122–R126: what the eight steps have established of fields that they accept. -/
theorem State.judgeStore_ok {s : State} {k : Slot} {new : Record} (h : s.judgeStore k = .ok new) :
    s.host.work.Accepted s.pockets (s.record k).location ∧ new = s.host.work.toStore (s.record k) ∧
      ¬ s.RankShared k new ∧ ¬ s.StoreLocked k new ∧ ¬ s.StoreConflicts k new ∧ ¬ s.StoreSpindleTaken k new := by
  obtain ⟨refused, judged⟩ := s.judgeStore_spec k
  by_cases ha : s.host.work.Accepted s.pockets (s.record k).location
  · rw [judged ha] at h
    dsimp only at h
    simp only [← State.rankTaken_iff, ← State.storeLocked_iff, ← State.placementRefused_iff,
      ← State.spindleRefused_iff]
    split at h <;> [cases h; skip]
    split at h <;> [cases h; skip]
    split at h <;> [cases h; skip]
    split at h <;> [cases h; skip]
    cases h
    exact ⟨ha, rfl, by assumption, by assumption, by assumption, by assumption⟩
  · rw [refused ha] at h; cases h

/-- R124: a STORE puts a slot in transit only where the image has it so. -/
theorem WorkFields.Accepted.transit {w : WorkFields} {P : Nat} {image : Location} (h : w.Accepted P image) (p : Nat) :
    (w.location = .transitIn p → image = .transitIn p) ∧ (w.location = .transitBack p → image = .transitBack p) := by
  obtain ⟨-, -, -, -, -, -, -, -, -, -, codes⟩ := h
  have equal : ∀ l : Location, l.kindCode = w.locKind.toNat → l.pocketPart = some w.locPocket.toNat →
      (w.locKind.toNat = 4 → l = .transitIn w.locPocket.toNat) ∧
      (w.locKind.toNat = 5 → l = .transitBack w.locPocket.toNat) := by
    intro l hk hp
    cases l <;> simp [Location.kindCode, Location.pocketPart] at hk hp ⊢ <;> omega
  unfold WorkFields.location
  rcases codes with ⟨e, -⟩ | e | e | ⟨e, hk, hp⟩ | ⟨e, -⟩
  · simp [e]
  · simp [e]
  · simp [e]
  · obtain ⟨h4, h5⟩ := equal image hk hp
    rcases e with e | e <;> simp [e]
    · rintro rfl; exact h4 e
    · rintro rfl; exact h5 e
  · simp [e]

/-- R62: the spindle after a STORE of slot `k`. -/
theorem Spindle.afterStore_spindle (sp : Spindle) (k : Slot) : sp.afterStore k .spindle = .holds k := rfl

theorem Spindle.afterStore_other {sp : Spindle} {k : Slot} {l : Location} (hl : l ≠ .spindle) (hs : sp ≠ .holds k) :
    sp.afterStore k l = sp := by
  cases l <;> simp_all [Spindle.afterStore]

theorem Spindle.afterStore_leaves {k : Slot} {l : Location} (hl : l ≠ .spindle) :
    (Spindle.holds k).afterStore k l = .unknown ∨ (Spindle.holds k).afterStore k l = .empty := by
  cases l <;> simp_all [Spindle.afterStore, Location.isUnknown]

/-- R62, R127: an accepted STORE leaves the spindle as it is, or replaces what was no exchange's: it took the slot in,
or let it go. -/
theorem State.TableSound.spindle_afterStore {s : State} (h : s.TableSound) {k : Slot} {new : Record}
    (hn : ¬ s.StoreSpindleTaken k new) :
    (s.spindle.afterStore k new.location = s.spindle ∨ (s.spindle ≠ .exchanging ∧
        s.spindle.afterStore k new.location ≠ .exchanging ∧ s.exchange.suspect? = none)) ∧
      (new.location = .spindle ↔ s.spindle.afterStore k new.location = .holds k) ∧
      (∀ j, j ≠ k → (s.spindle.afterStore k new.location = .holds j ↔ s.spindle = .holds j)) := by
  have quiet : s.spindle ≠ .unknown → s.exchange.suspect? = none := by
    intro e; by_contra hc; exact e (h.exchange.suspected hc)
  by_cases hl : new.location = .spindle
  · have free : (∀ j, j ≠ k → s.spindle ≠ .holds j) ∧ s.spindle ≠ .exchanging ∧ s.exchange.suspect? = none := by
      refine ⟨fun j hj e => hn ⟨hl, .inl ⟨j, hj, e⟩⟩, fun e => hn ⟨hl, .inr (.inl e)⟩, ?_⟩
      by_contra hc; exact hn ⟨hl, .inr (.inr ⟨h.exchange.suspected hc, hc⟩)⟩
    obtain ⟨others, moving, suspect⟩ := free
    rw [hl, Spindle.afterStore_spindle]
    refine ⟨.inr ⟨moving, by simp, suspect⟩, by simp, fun j hj => ?_⟩
    simp [others j hj, Ne.symm hj]
  · by_cases hs : s.spindle = .holds k
    · have moving : s.spindle ≠ .exchanging := by rw [hs]; simp
      have suspect := quiet (by rw [hs]; simp)
      rw [hs] at moving ⊢
      rcases Spindle.afterStore_leaves (k := k) hl with e | e <;> rw [e]
      · exact ⟨.inr ⟨moving, by simp, suspect⟩, by simp [hl], fun j hj => by simp [Ne.symm hj]⟩
      · exact ⟨.inr ⟨moving, by simp, suspect⟩, by simp [hl], fun j hj => by simp [Ne.symm hj]⟩
    · rw [Spindle.afterStore_other hl hs]
      exact ⟨.inl rfl, by simp [hl, hs], fun _ _ => Iff.rfl⟩

/-- R94: an accepted STORE leaves a slot that the exchange names in its place, and no other in transit. -/
theorem State.TableSound.transitFits_toStore {s : State} (h : s.TableSound) {k : Slot} {new : Record}
    (ha : s.host.work.Accepted s.pockets (s.record k).location) (hn : new = s.host.work.toStore (s.record k))
    (hl : ¬ s.StoreLocked k new) (hv : new.condition ≠ .vacant) : s.TransitFits k new := by
  have stays (hk : s.Named k) : new.location = (s.record k).location := by
    by_contra hc; exact hl ⟨hk, .inr (.inr (.inr hc))⟩
  have location : new.location = s.host.work.location := by rw [hn]; rfl
  refine ⟨fun p => ⟨fun e => (ha.transit p).1 (location ▸ e), fun e => ?_⟩,
    fun p => ⟨fun e => (ha.transit p).2 (location ▸ e), fun e => ?_⟩, fun hk => ⟨stays hk, hv⟩⟩
  · obtain ⟨x, hx, hk⟩ := (h.exchange.movingIn k p).1 e
    rw [stays (.of_incoming (Exchange.open?_of_moving? hx) hk), e]
  · obtain ⟨x, hx, hk⟩ := (h.exchange.movingBack k p).1 e
    rw [stays (.of_outgoing (Exchange.open?_of_moving? hx) hk), e]

/-- R122–R127: an accepted STORE keeps the table. -/
theorem State.TableSound.applyStore {s : State} (h : s.TableSound) {k : Slot} {new : Record}
    (hj : s.judgeStore k = .ok new) : (s.applyStore k new).TableSound := by
  obtain ⟨accepted, fields, rank, unlocked, -, free⟩ := State.judgeStore_ok hj
  obtain ⟨occupied, sound⟩ := WorkFields.toStore_sound accepted (h.records.image k)
  rw [← fields] at occupied sound
  obtain ⟨exchanging, holds, others⟩ := h.spindle_afterStore free
  have hw : s.Wrote (s.applyStore k new) k new := s.wrote_claim k new _
  constructor
  · refine ⟨fun j => ?_, by rw [State.applyStore_slotCopies]; exact h.records.copies,
      by rw [State.applyStore_flight]; exact h.records.flight⟩
    by_cases e : j = k
    · subst e; rw [hw.1]; exact sound
    · rw [hw.2 j e]; exact h.records.image j
  · exact h.exchange.wrote hw (h.transitFits_toStore accepted fields unlocked occupied) (by simp) exchanging
  · exact h.spindle.wrote hw holds others
  · refine h.ranks.wrote hw fun _ j hv htool hrank => ?_
    have apart : j = k := by by_contra e; exact rank ⟨j, e, hv, htool, hrank⟩
    subst apart
    exact ⟨fun e => absurd e (lt_irrefl _), fun e => absurd e (lt_irrefl _)⟩
  · simpa [State.TagsSound] using h.tags

end Sys2Proof.Machine

namespace Sys2Proof.Machine

/-! ### The movements of the exchange -/

theorem Movement.mem_named (m : Movement) (k : Slot) :
    k ∈ m.named ↔ (∃ p, m.incoming = some (k, p)) ∨ ∃ p, m.outgoing = some (k, p) := by
  cases hi : m.incoming <;> cases ho : m.outgoing <;> simp [Movement.named, hi, ho, Prod.ext_iff, eq_comm]

/-- `t` is `s` with the ends of the movement `m` put where `f` and `g` put them: nothing but the location and the home
pocket of the two ends differs. -/
structure State.Moved (s t : State) (m : Movement) (f g : Nat → Location) : Prop where
  incoming : ∀ k p, m.incoming = some (k, p) → (t.record k).location = f p
  outgoing : ∀ k p, m.outgoing = some (k, p) → (t.record k).location = g p
  others : ∀ k, k ∉ m.named → t.record k = s.record k
  place : ∀ k, t.record k = { s.record k with location := (t.record k).location, home := (t.record k).home }

theorem State.Moved.congr {s t u : State} {m : Movement} {f g : Nat → Location} (h : s.Moved t m f g)
    (hi : u.image = t.image) : s.Moved u m f g := by
  constructor <;> simp only [State.record_eq _ _ hi]
  · exact h.incoming
  · exact h.outgoing
  · exact h.others
  · exact h.place

/-- What a list of exchange claims on the ends of `m` makes of the records. -/
theorem State.Rewritten.moved {s t : State} {m : Movement} {f g : Nat → Record → Record} {f' g' : Nat → Location}
    (h : s.Rewritten t (s.movedFields m f g)) (hf : ∀ p r, (f p r).location = f' p)
    (hg : ∀ p r, (g p r).location = g' p)
    (pf : ∀ p r, f p r = { r with location := (f p r).location, home := (f p r).home })
    (pg : ∀ p r, g p r = { r with location := (g p r).location, home := (g p r).home }) : s.Moved t m f' g' := by
  have record (k r) (hm : (k, r) ∈ s.movedFields m f g) : t.record k = r := by
    rw [State.record, h.named k r hm]
  have inward (k p) (hk : m.incoming = some (k, p)) : t.record k = f p (s.record k) :=
    record k _ ((State.mem_movedFields ..).2 (.inl ⟨p, hk, rfl⟩))
  have outward (k p) (hk : m.outgoing = some (k, p)) : t.record k = g p (s.record k) :=
    record k _ ((State.mem_movedFields ..).2 (.inr ⟨p, hk, rfl⟩))
  have others (k) (hk : k ∉ m.named) : t.record k = s.record k := by
    rw [State.record, h.others k (by rwa [State.movedFields_slots])]; rfl
  refine ⟨fun k p hk => by rw [inward k p hk, hf], fun k p hk => by rw [outward k p hk, hg], others, fun k => ?_⟩
  by_cases hk : k ∈ m.named
  · rcases (m.mem_named k).1 hk with ⟨p, hp⟩ | ⟨p, hp⟩
    · rw [inward k p hp]; exact pf p _
    · rw [outward k p hp]; exact pg p _
  · rw [others k hk]

/-- A movement of non-vacant slots keeps the table, once the exchange, the spindle and the tags agree with it. -/
theorem State.TableSound.of_moved {s t : State} {m : Movement} {f g : Nat → Location} (h : s.TableSound)
    (hm : s.Moved t m f g) (ho : ∀ k ∈ m.named, (s.record k).occupied = true) (hx : t.ExchangeSound)
    (hs : t.SpindleSound) (ht : t.TagsSound) (hc : t.slotCopies = s.slotCopies)
    (hf : ∀ y, t.flight = some y → ∃ z, s.flight = some z ∧ z.content = y.content) : t.TableSound := by
  have condition (k) : (t.record k).condition = (s.record k).condition := by rw [hm.place]
  have tool (k) : (t.record k).tool = (s.record k).tool := by rw [hm.place]
  have rank (k) : (t.record k).rank = (s.record k).rank := by rw [hm.place]
  have hold (k) : (t.record k).hold = (s.record k).hold := by rw [hm.place]
  refine ⟨⟨fun k => ?_, by rw [hc]; exact h.records.copies, fun y hy => ?_⟩, hx, hs, ?_, ht⟩
  · by_cases hk : k ∈ m.named
    · rw [hm.place]
      exact Record.sound_of_place (h.records.image k) ((Record.occupied_iff _).1 (ho k hk)) _ _ _ _
    · rw [hm.others k hk]; exact h.records.image k
  · obtain ⟨z, hz, e⟩ := hf y hy
    rw [← e]; exact h.records.flight z hz
  · intro j k
    simp only [ranksBelow, condition, tool, rank, hold]
    exact h.ranks j k

/-- No slot but those of the movement is in transit or in the spindle. -/
def State.QuietBut (s : State) (m : Movement) : Prop :=
  ∀ k, k ∉ m.named → (s.record k).location ≠ .spindle ∧
    (∀ p, (s.record k).location ≠ .transitIn p) ∧ ∀ p, (s.record k).location ≠ .transitBack p

/-- R61, R75: while an exchange is open, the slots it names alone are in transit, and none is in the spindle. -/
theorem State.TableSound.quietBut {s : State} (h : s.TableSound) {x : OpenExchange}
    (hx : s.exchange.open? = some x) : s.QuietBut x.movement := by
  have same (y) (hy : s.exchange.moving? = some y) : y = x := by
    have := Exchange.open?_of_moving? hy
    rw [hx] at this; cases this; rfl
  intro k hk
  refine ⟨fun e => ?_, fun p e => hk ?_, fun p e => hk ?_⟩
  · have holds := (h.spindle k).1 e
    cases hs : s.exchange with
    | idle => simp [hs, Exchange.open?] at hx
    | offered y | reserved y n =>
      have := h.exchange.exchanging.2 (by simp [hs, Exchange.moving?])
      simp [this] at holds
    | suspect y c =>
      have := h.exchange.suspected (by simp [hs, Exchange.suspect?])
      simp [this] at holds
  · obtain ⟨y, hy, hi⟩ := (h.exchange.movingIn k p).1 e
    rw [same y hy] at hi
    exact (Movement.mem_named _ _).2 (.inl ⟨p, hi⟩)
  · obtain ⟨y, hy, hi⟩ := (h.exchange.movingBack k p).1 e
    rw [same y hy] at hi
    exact (Movement.mem_named _ _).2 (.inr ⟨p, hi⟩)

/-- Where a movement leaves a slot: at one of its two ends, or with the fields it had. -/
theorem State.Moved.location_cases {s t : State} {m : Movement} {f g : Nat → Location} (hm : s.Moved t m f g)
    (k : Slot) :
    (∃ p, m.incoming = some (k, p) ∧ (t.record k).location = f p) ∨
      (∃ p, m.outgoing = some (k, p) ∧ (t.record k).location = g p) ∨ (k ∉ m.named ∧ t.record k = s.record k) := by
  by_cases hk : k ∈ m.named
  · rcases (m.mem_named k).1 hk with ⟨p, hp⟩ | ⟨p, hp⟩
    · exact .inl ⟨p, hp, hm.incoming k p hp⟩
    · exact .inr (.inl ⟨p, hp, hm.outgoing k p hp⟩)
  · exact .inr (.inr ⟨hk, hm.others k hk⟩)

/-- No slot of the table is in transit once the movement has ended outside transit. -/
theorem State.Moved.not_transit {s t : State} {m : Movement} {f g : Nat → Location} (hm : s.Moved t m f g)
    (hq : s.QuietBut m) (hf : ∀ p q, f p ≠ .transitIn q ∧ f p ≠ .transitBack q)
    (hg : ∀ p q, g p ≠ .transitIn q ∧ g p ≠ .transitBack q) (k : Slot) (q : Nat) :
    (t.record k).location ≠ .transitIn q ∧ (t.record k).location ≠ .transitBack q := by
  rcases hm.location_cases k with ⟨p, -, e⟩ | ⟨p, -, e⟩ | ⟨hk, e⟩ <;> rw [e]
  · exact hf p q
  · exact hg p q
  · exact ⟨(hq k hk).2.1 q, (hq k hk).2.2 q⟩

/-- No slot of the table is in the spindle once the movement has ended outside it. -/
theorem State.Moved.not_spindle {s t : State} {m : Movement} {f g : Nat → Location} (hm : s.Moved t m f g)
    (hq : s.QuietBut m) (hf : ∀ p, f p ≠ .spindle) (hg : ∀ p, g p ≠ .spindle) (k : Slot) :
    (t.record k).location ≠ .spindle := by
  rcases hm.location_cases k with ⟨p, -, e⟩ | ⟨p, -, e⟩ | ⟨hk, e⟩ <;> rw [e]
  · exact hf p
  · exact hg p
  · exact (hq k hk).1

/-- R74: with no slot in transit, no exchange open and the spindle not EXCHANGING, the context agrees. -/
theorem State.ExchangeSound.of_idle {t : State} (hx : t.exchange = .idle) (hs : t.spindle ≠ .exchanging)
    (ht : ∀ k p, (t.record k).location ≠ .transitIn p ∧ (t.record k).location ≠ .transitBack p) : t.ExchangeSound := by
  constructor <;> simp [hx, hs, ht, Exchange.open?, Exchange.moving?, Exchange.suspect?]

theorem Movement.spindleAfterMove_holds (m : Movement) (k : Slot) :
    m.spindleAfterMove = .holds k ↔ ∃ p, m.incoming = some (k, p) := by
  unfold Movement.spindleAfterMove
  rcases m.incoming with _ | ⟨j, p⟩ <;> simp

theorem Movement.spindleAfterRevert_holds (m : Movement) (k : Slot) :
    m.spindleAfterRevert = .holds k ↔ ∃ p, m.outgoing = some (k, p) := by
  unfold Movement.spindleAfterRevert
  rcases m.outgoing with _ | ⟨j, p⟩ <;> simp

/-- R86, R93: a completed movement keeps the table. -/
theorem State.TableSound.completeMove {s : State} (h : s.TableSound) {x : OpenExchange}
    (hx : s.exchange.open? = some x) : (s.completeMove x.movement).TableSound := by
  have hq := h.quietBut hx
  have hm : s.Moved (s.completeMove x.movement) x.movement (fun _ => .spindle) .pocket :=
    (State.rewritten_completeMove s h.exchange hx).moved (fun _ _ => rfl) (fun _ _ => rfl) (fun _ _ => rfl)
      (fun _ _ => rfl)
  refine h.of_moved hm (h.exchange.occupied x hx) (.of_idle rfl ?_ (hm.not_transit hq (by simp) (by simp)))
    (fun k => ?_) ⟨by simpa using h.tags.1, fun y hy => by cases hy⟩ (by simp) (fun y hy => ⟨y, by simpa using hy, rfl⟩)
  · show x.movement.spindleAfterMove ≠ _
    unfold Movement.spindleAfterMove; split <;> simp
  · refine Iff.trans ⟨fun e => ?_, fun ⟨p, e⟩ => hm.incoming k p e⟩ (x.movement.spindleAfterMove_holds k).symm
    rcases hm.location_cases k with ⟨p, hp, -⟩ | ⟨p, -, e'⟩ | ⟨hk, e'⟩
    · exact ⟨p, hp⟩
    · rw [e'] at e; cases e
    · rw [e'] at e; exact absurd e (hq k hk).1

/-- R83, R93: a revert keeps the table. -/
theorem State.TableSound.revert {s : State} (h : s.TableSound) {x : OpenExchange}
    (hx : s.exchange.open? = some x) : (s.revert x.movement).TableSound := by
  have hq := h.quietBut hx
  have hm : s.Moved (s.revert x.movement) x.movement .pocket (fun _ => .spindle) :=
    (State.rewritten_revert s h.exchange hx).moved (fun _ _ => rfl) (fun _ _ => rfl) (fun _ _ => rfl)
      (fun _ _ => rfl)
  refine h.of_moved hm (h.exchange.occupied x hx) (.of_idle rfl ?_ (hm.not_transit hq (by simp) (by simp)))
    (fun k => ?_) ⟨by simpa using h.tags.1, fun y hy => by cases hy⟩ (by simp) (fun y hy => ⟨y, by simpa using hy, rfl⟩)
  · show x.movement.spindleAfterRevert ≠ _
    unfold Movement.spindleAfterRevert; split <;> simp
  · refine Iff.trans ⟨fun e => ?_, fun ⟨p, e⟩ => hm.outgoing k p e⟩ (x.movement.spindleAfterRevert_holds k).symm
    rcases hm.location_cases k with ⟨p, -, e'⟩ | ⟨p, hp, -⟩ | ⟨hk, e'⟩
    · rw [e'] at e; cases e
    · exact ⟨p, hp⟩
    · rw [e'] at e; exact absurd e (hq k hk).1

/-- R90, R92: a suspicion of an exchange whose slots are in transit keeps the table. -/
theorem State.TableSound.suspectExchange {s : State} (h : s.TableSound) {x : OpenExchange}
    (hx : s.exchange.moving? = some x) (c : Suspicion) : (s.suspectExchange x c).TableSound := by
  have hopen := Exchange.open?_of_moving? hx
  have hq := h.quietBut hopen
  have hsus : s.exchange.suspect? = none := by
    cases e : s.exchange <;> simp [e, Exchange.moving?, Exchange.suspect?] at hx ⊢
  have hm : s.Moved (s.suspectExchange x c) x.movement (fun p => .unknown (some p)) (fun p => .unknown (some p)) :=
    (State.rewritten_suspectExchange s h.exchange hopen hsus c).moved (fun _ _ => rfl) (fun _ _ => rfl)
      (fun _ _ => rfl) (fun _ _ => rfl)
  have hnt := hm.not_transit hq (by simp) (by simp)
  refine h.of_moved hm (h.exchange.occupied x hopen) ?_ (fun k => ?_) ⟨by simpa using h.tags.1, fun y hy => ?_⟩
    (by simp) (fun y hy => ⟨y, by simpa using hy, rfl⟩)
  · have hocc (k) : ((s.suspectExchange x c).record k).occupied = (s.record k).occupied := by
      unfold Record.occupied; rw [hm.place]
    have hex : (s.suspectExchange x c).exchange = .suspect x c := rfl
    refine ⟨?_, ?_, ?_, ?_, ?_, ?_, ?_⟩ <;>
      simp only [hex, hocc, Exchange.open?, Exchange.moving?, Exchange.suspect?, Option.some.injEq, forall_eq']
    · exact h.exchange.distinct x hopen
    · exact h.exchange.occupied x hopen
    · simp [hnt]
    · simp [hnt]
    · exact fun k p hk => hk.elim (hm.incoming k p) (hm.outgoing k p)
    · exact iff_of_false (fun e => by cases e) (by simp)
    · exact fun _ => rfl
  · exact iff_of_false (hm.not_spindle hq (by simp) (by simp) k) (fun e => by cases e)
  · cases hy; exact h.tags.2 x hopen

/-- R80, R158: the waiting for commits writes nothing that the table depends on. -/
theorem State.TableSound.awaitCommits {s : State} (h : s.TableSound) (m : Movement) (w : Withheld) :
    (s.awaitCommits m w).TableSound := by
  refine h.of_records_eq (State.record_eq _ _ (by simp)) (by simp) (by simp) (by simp) (by simpa using h.records.copies)
    fun f hf => ?_
  rw [(State.awaited_awaitCommits s s m w rfl rfl).flight] at hf
  obtain ⟨y, hy, rfl⟩ := Option.map_eq_some_iff.1 hf
  rw [apply_ite Flight.content, ite_self]
  exact h.records.flight y hy

/-- R76: the tag that follows a tag of 1 to 15 is one of them. -/
theorem tagAfter_range {t : Nat} (h : 1 ≤ t ∧ t ≤ 15) : 1 ≤ tagAfter t ∧ tagAfter t ≤ 15 := by
  unfold tagAfter; split <;> omega

/-- R78: an open keeps the table, when the slots that it names are two tools out of transit and no other tool is in the
spindle or in transit. -/
theorem State.TableSound.openExchange {s : State} (h : s.TableSound) {m : Movement} (hd : m.distinct)
    (ho : ∀ k ∈ m.named, (s.record k).occupied = true) (hq : s.QuietBut m)
    (hi : ∀ k p, m.incoming = some (k, p) → (s.record k).location ≠ .transitIn p)
    (hb : ∀ k p, m.outgoing = some (k, p) → (s.record k).location ≠ .transitBack p) :
    (s.openExchange m).TableSound := by
  have hr := State.rewritten_movedFields s m hd (fun p r => { r with location := .transitIn p })
    (fun p r => { r with location := .transitBack p }) (fun k p e => Record.location_ne _ _ (hi k p e))
    (fun k p e => Record.location_ne _ _ (hb k p e))
  rw [← State.moveBoth_eq_rewrite s m hd] at hr
  unfold State.openExchange
  refine State.TableSound.awaitCommits ?_ _ _
  have hm := hr.moved (f' := .transitIn) (g' := .transitBack) (fun _ _ => rfl) (fun _ _ => rfl) (fun _ _ => rfl)
    (fun _ _ => rfl)
  replace hm := hm.congr (u := { (s.moveIncoming m .transitIn).moveOutgoing m .transitBack with
    spindle := .exchanging, exchange := .offered { tag := s.nextTag, movement := m },
    nextTag := tagAfter s.nextTag, link := s.link.answerOpening (s.openingWord m) }) rfl
  refine h.of_moved hm ho ?_ (fun k => ?_) ⟨tagAfter_range h.tags.1, fun y hy => ?_⟩ (by simp)
    (fun y hy => ⟨y, by simpa using hy, rfl⟩)
  · refine ⟨?_, ?_, ?_, ?_, ?_, ?_, ?_⟩ <;>
      simp only [Exchange.open?, Exchange.moving?, Exchange.suspect?, Option.some.injEq, forall_eq', exists_eq_left']
    · exact hd
    · intro k hk
      rw [hm.place]; exact ho k hk
    · refine fun k p => ⟨fun e => ?_, hm.incoming k p⟩
      rcases hm.location_cases k with ⟨q, hp, e'⟩ | ⟨q, -, e'⟩ | ⟨hk, e'⟩ <;> rw [e'] at e
      · cases e; exact hp
      · cases e
      · exact absurd e ((hq k hk).2.1 p)
    · refine fun k p => ⟨fun e => ?_, hm.outgoing k p⟩
      rcases hm.location_cases k with ⟨q, -, e'⟩ | ⟨q, hp, e'⟩ | ⟨hk, e'⟩ <;> rw [e'] at e
      · cases e
      · cases e; exact hp
      · exact absurd e ((hq k hk).2.2 p)
    · simp
    · simp
    · simp
  · exact iff_of_false (hm.not_spindle hq (by simp) (by simp) k) (fun e => by cases e)
  · cases hy; exact h.tags.1

end Sys2Proof.Machine

namespace Sys2Proof.Machine

/-! ### The decisions of the Exchange Controller -/

theorem Exchange.refusal_eq_none {e : Exchange} (h : e.refusal = none) : e = .idle := by
  cases e <;> simp_all [Exchange.refusal]

/-- R40: the candidate that the choice names is a pocket candidate in that pocket. -/
theorem State.choose_candidate {s : State} {n : Nat} {k : Slot} {p : Nat} (h : s.choose n = .candidate k p) :
    (s.record k).location = .pocket p := by
  unfold State.choose at h
  dsimp only at h
  split at h <;> [cases h; skip]
  split at h <;> [cases h; skip]
  split at h
  · rename_i j q hf
    cases h
    obtain ⟨i, -, hi⟩ := List.exists_of_findSome?_eq_some hf
    obtain ⟨q, hq, e⟩ := Option.map_eq_some_iff.1 hi
    cases e
    exact ((Record.candidatePocket_eq_some _ _).1 hq).2
  · split at h <;> cases h

/-- R48: the outgoing slot of a CALL is the slot that the spindle HOLDS. -/
theorem State.outgoingForCall_ok {s : State} {i : Slot} {src : Nat} {o : Option (Slot × Nat)}
    (h : s.outgoingForCall i src = .ok o) (j : Slot) : s.spindle = .holds j ↔ ∃ r, o = some (j, r) := by
  unfold State.outgoingForCall at h
  split at h
  · rename_i k hs
    split at h <;> cases h
    rw [hs]; simp [eq_comm]
  · rename_i hs
    cases h
    simpa using hs j

/-- R61, R75: with no exchange open, no slot but the one in the spindle is in transit or in the spindle. -/
theorem State.TableSound.quietBut_of_idle {s : State} (h : s.TableSound) {m : Movement} (hx : s.exchange = .idle)
    (hs : ∀ k, s.spindle = .holds k → k ∈ m.named) : s.QuietBut m := by
  intro k hk
  refine ⟨fun e => hk (hs k ((h.spindle k).1 e)), fun p e => ?_, fun p e => ?_⟩
  · obtain ⟨x, hx', -⟩ := (h.exchange.movingIn k p).1 e
    simp [hx, Exchange.moving?] at hx'
  · obtain ⟨x, hx', -⟩ := (h.exchange.movingBack k p).1 e
    simp [hx, Exchange.moving?] at hx'

/-- R61: the slot that the spindle HOLDS has location SPINDLE and is not VACANT. -/
theorem State.TableSound.in_spindle {s : State} (h : s.TableSound) {k : Slot} (hk : s.spindle = .holds k) :
    (s.record k).location = .spindle ∧ (s.record k).occupied = true :=
  ⟨(h.spindle k).2 hk, (Record.occupied_iff _).2 (h.holds_occupied hk)⟩

/-- R41–R48, R78: a CALL keeps the table. -/
theorem State.TableSound.decideCall {s : State} (h : s.TableSound) (n : Nat) : (s.decideCall n).TableSound := by
  have answered (a) : (s.answer a).TableSound := h.congr rfl
  unfold State.decideCall
  split <;> [exact answered _; skip]
  rename_i hx
  replace hx := Exchange.refusal_eq_none hx
  split <;> [exact answered _; skip]
  split <;> try exact answered _
  rename_i k p hc
  split <;> [exact answered _; skip]
  rename_i o hout
  have stands := State.choose_candidate hc
  have tool : (s.record k).occupied = true :=
    (Record.occupied_iff _).2 ((h.records.image k).occupied (by rw [stands]; simp))
  have spindle (j r) (e : o = some (j, r)) := h.in_spindle ((State.outgoingForCall_ok hout j).2 ⟨r, e⟩)
  have distinct : (Movement.call k p o).distinct := by
    rcases o with _ | ⟨j, r⟩
    · simp [Movement.distinct, Movement.named, Movement.incoming, Movement.outgoing]
    · have apart : k ≠ j := by
        rintro rfl
        have := (spindle k r rfl).1
        rw [stands] at this; cases this
      simpa [Movement.distinct, Movement.named, Movement.incoming, Movement.outgoing] using apart
  refine h.openExchange distinct (fun j hj => ?_) (h.quietBut_of_idle hx fun j hj => ?_) (fun j q e => ?_)
    (fun j q e => ?_)
  · rcases (Movement.mem_named _ _).1 hj with ⟨q, e⟩ | ⟨q, e⟩
    · cases e; exact tool
    · exact (spindle j q e).2
  · exact (Movement.mem_named _ _).2 (.inr ((State.outgoingForCall_ok hout j).1 hj))
  · cases e; rw [stands]; simp
  · rw [(spindle j q e).1]; simp

/-- R77, R78: a PUTAWAY keeps the table. -/
theorem State.TableSound.decidePutaway {s : State} (h : s.TableSound) : s.decidePutaway.TableSound := by
  have answered (a) : (s.answer a).TableSound := h.congr rfl
  unfold State.decidePutaway
  split <;> [exact answered _; skip]
  rename_i hx
  replace hx := Exchange.refusal_eq_none hx
  split <;> try exact answered _
  · exact h
  rename_i k hs
  split <;> [exact answered _; skip]
  rename_i r _
  obtain ⟨stands, tool⟩ := h.in_spindle hs
  have named : (Movement.putaway k r).named = [k] := rfl
  refine h.openExchange (by simp [Movement.distinct, named]) (fun j hj => ?_)
    (h.quietBut_of_idle hx fun j hj => ?_) (fun j q e => by cases e) (fun j q e => ?_)
  · rw [named, List.mem_singleton] at hj; rw [hj]; exact tool
  · rw [hs] at hj; cases hj; simp [named]
  · cases e; rw [stands]; simp

/-- R86, R88: a DONE keeps the table. -/
theorem State.TableSound.decideDone {s : State} (h : s.TableSound) (n : Nat) : (s.decideDone n).TableSound := by
  unfold State.decideDone
  split
  · exact h.congr rfl
  · split
    · rename_i x _ hx
      have hc := (h.completeMove (x := x) (by rw [hx]; rfl)).awaitCommits x.movement (.doneOk n)
      exact hc.congr rfl
    · exact h

/-- R87, R88: an ABANDON keeps the table. -/
theorem State.TableSound.decideAbandon {s : State} (h : s.TableSound) (n : Nat) : (s.decideAbandon n).TableSound := by
  unfold State.decideAbandon
  split
  · exact h.congr rfl
  · split
    · rename_i x _ hx
      have hc := (h.revert (x := x) (by rw [hx]; rfl)).awaitCommits x.movement (.abandoned n)
      exact hc.congr rfl
    · exact h

/-! ### The exchange apart from its decisions -/

/-- R84: the exchange that is taken in hand is open as it was. -/
theorem State.TableSound.reportTake {s : State} (h : s.TableSound) : s.reportTake.TableSound := by
  unfold State.reportTake
  split
  · rename_i x hx
    obtain ⟨records, ⟨distinct, occupied, movingIn, movingBack, -, exchanging, -⟩, spindle, ranks, tags⟩ := h
    rw [hx] at distinct occupied movingIn movingBack exchanging
    refine ⟨⟨records.image, records.copies, records.flight⟩,
      ⟨distinct, occupied, movingIn, movingBack, fun y hy => (nomatch hy), exchanging,
        fun e => absurd rfl e⟩,
      spindle, ranks, ⟨tags.1, ?_⟩⟩
    have := tags.2
    rwa [hx] at this
  · exact h

/-- R82, R89: the answer of a store fault, with the revert that it makes of an OFFERED exchange. -/
theorem State.TableSound.replaceAnswer {s : State} (h : s.TableSound) (w : Withheld) (k : Slot) :
    (s.replaceAnswer w k).TableSound := by
  unfold State.replaceAnswer
  split
  · dsimp only
    split
    · rename_i x hx
      exact (h.revert (x := x) (by rw [hx]; rfl)).congr rfl
    · exact h.congr rfl
  · exact h.congr rfl
  · exact h.congr rfl

/-- R80, R82, R89: the release of a confirmation record keeps the table. -/
theorem State.TableSound.releaseRecord {s : State} (h : s.TableSound) : s.releaseRecord.TableSound := by
  unfold State.releaseRecord
  split <;> [skip; exact h]
  split <;> [exact h; skip]
  split <;> [exact h.replaceAnswer _ _; skip]
  split <;> [exact h.congr rfl; exact h]

/-- R90: the expiry of the exchange timer keeps the table. -/
theorem State.TableSound.expireTimer {s : State} (h : s.TableSound) : s.expireTimer.TableSound := by
  unfold State.expireTimer
  split <;> [skip; exact h]
  rename_i x _ hx
  split <;> [exact h; exact h.suspectExchange (by rw [hx]; rfl) _]

/-- R92: the effect of /RESET on the exchange keeps the table. -/
theorem State.TableSound.resetExchange {s : State} (h : s.TableSound) : s.resetExchange.TableSound := by
  have ht : ({ s with confirmation := none } : State).TableSound := h.congr rfl
  unfold State.resetExchange
  dsimp only
  split
  · exact ht
  · rename_i x hx; exact ht.revert (x := x) (congrArg _ hx)
  · rename_i x n hx; exact ht.suspectExchange (x := x) (congrArg _ hx) _
  · exact ht

/-- R63: a declaration that the spindle is empty keeps the table: the spindle was UNKNOWN, and no exchange SUSPECT. -/
theorem State.TableSound.spindleEmpty {s : State} (h : s.TableSound) (hs : s.spindle = .unknown)
    (hx : s.exchange.isSuspect = false) : ({ s with spindle := .empty } : State).TableSound := by
  obtain ⟨records, exchange, spindle, ranks, tags⟩ := h
  refine ⟨⟨records.image, records.copies, records.flight⟩,
    ⟨exchange.distinct, exchange.occupied, exchange.movingIn, exchange.movingBack, exchange.doubted, ?_, ?_⟩,
    fun k => ?_, ranks, tags⟩
  · have := exchange.exchanging
    rw [hs] at this
    simpa using this
  · intro e
    cases hc : s.exchange <;> simp [hc, Exchange.isSuspect, Exchange.suspect?] at hx e
  · have := spindle k
    rw [hs] at this
    show (s.record k).location = .spindle ↔ _
    simpa using this

/-! ### The Commit Engine and the supply -/

/-- A write of a copy keeps what the copies satisfy, when a copy that it leaves valid satisfies it. -/
theorem CopyPair.satisfies_put {α : Type} {P : α → Prop} {c : CopyPair α} (h : c.satisfies P) (n : CopyName)
    {x : Copy α} (hx : x.satisfies P) : (c.put n x).satisfies P := by
  cases n
  · exact ⟨hx, h.2⟩
  · exact ⟨h.1, hx⟩

/-- R154, R155: what a flight writes to the array is what it carries. -/
theorem State.writeTarget_copies_sound {s : State} (h : ∀ k : Slot, (s.slotCopies[k]).satisfies Record.sound)
    {f : Flight} (hf : f.content.sound) (v : Bool) (k : Slot) :
    ((s.writeTarget f v).slotCopies[k]).satisfies Record.sound := by
  cases hc : f.content with
  | cfg c => simp only [State.writeTarget, hc]; exact h k
  | slot j r st =>
    obtain ⟨written, others⟩ := State.writeTarget_slotCopies s f v j r st hc
    rw [hc] at hf
    by_cases e : k = j
    · subst e
      rw [written]
      refine CopyPair.satisfies_put (h k) _ ?_
      cases v
      · trivial
      · exact hf
    · rw [others k e]; exact h k

/-- R153: the flight that a start takes carries sound fields. -/
theorem State.TableSound.startFlight {s : State} (h : s.TableSound) : s.startFlight.TableSound := by
  refine h.of_records_eq (State.record_eq _ _ (by simp)) (by simp) (by simp) (by simp) (by simpa using h.records.copies)
    fun f hf => ?_
  unfold State.startFlight at hf
  split at hf <;> [skip; exact h.records.flight f hf]
  split at hf <;> [skip; exact h.records.flight f hf]
  rename_i e cls _
  cases hf
  cases e with
  | slot k => exact h.records.image k
  | cfg => trivial

/-- R155: the completion clears STORE_FAULT of its slot, and DIRTY where no entry of the slot waits. -/
theorem State.completeFlight_image {s : State} {f : Flight} {k : Slot} {r : Record} {st : Stamp}
    (hc : f.content = .slot k r st) : (s.completeFlight f).image = s.image.set k
      { s.slot k with dirty := (s.slot k).dirty && s.queue.holds (.slot k), storeFault := false } := by
  simp [State.completeFlight, hc, State.slot]

/-- R156: the failure sets STORE_FAULT, ATTN and DIRTY of its slot. -/
theorem State.failFlight_image {s : State} {f : Flight} {k : Slot} {r : Record} {st : Stamp}
    (hc : f.content = .slot k r st) : (s.failFlight f).image = s.image.set k
      { s.slot k with storeFault := true, attn := true, dirty := true } := by
  simp [State.failFlight, hc, State.slot]

theorem State.completeFlight_image_cfg {s : State} {f : Flight} {c : Configuration} (hc : f.content = .cfg c) :
    (s.completeFlight f).image = s.image := by
  simp [State.completeFlight, hc]

theorem State.failFlight_image_cfg {s : State} {f : Flight} {c : Configuration} (hc : f.content = .cfg c) :
    (s.failFlight f).image = s.image := by
  simp [State.failFlight, hc]

/-- R154–R156: no end of an attempt changes a persistent field of the image. -/
theorem State.completeFlight_record (s : State) (f : Flight) (k : Slot) :
    (s.completeFlight f).record k = s.record k := by
  cases hc : f.content with
  | slot j r st => exact State.record_of_image_set (State.completeFlight_image hc) rfl k
  | cfg c => exact State.record_eq _ _ (State.completeFlight_image_cfg hc) k

theorem State.failFlight_record (s : State) (f : Flight) (k : Slot) : (s.failFlight f).record k = s.record k := by
  cases hc : f.content with
  | slot j r st => exact State.record_of_image_set (State.failFlight_image hc) rfl k
  | cfg c => exact State.record_eq _ _ (State.failFlight_image_cfg hc) k

theorem State.completeFlight_slotCopies (s : State) (f : Flight) :
    (s.completeFlight f).slotCopies = (s.writeTarget f true).slotCopies := by
  unfold State.completeFlight; dsimp only; split <;> simp

theorem State.failFlight_slotCopies (s : State) (f : Flight) :
    (s.failFlight f).slotCopies = (s.writeTarget f false).slotCopies := by
  unfold State.failFlight; dsimp only; split <;> simp

theorem State.completeFlight_flight (s : State) (f : Flight) : (s.completeFlight f).flight = none := by
  unfold State.completeFlight; dsimp only; split <;> simp

theorem State.failFlight_flight (s : State) (f : Flight) : (s.failFlight f).flight = none := by
  unfold State.failFlight; dsimp only; split <;> simp

/-- R154–R156: the end of an attempt keeps the table. -/
theorem State.TableSound.endAttempt {s : State} (h : s.TableSound) (v : Verify) : (s.endAttempt v).TableSound := by
  unfold State.endAttempt
  split <;> [exact h; skip]
  rename_i f hf
  have sound := h.records.flight f hf
  have copies (v) := State.writeTarget_copies_sound h.records.copies sound v
  split
  · exact h.of_records_eq (s.completeFlight_record f) (by simp) (by simp) (by simp)
      (by rw [State.completeFlight_slotCopies]; exact copies true) (by simp [State.completeFlight_flight])
  · split
    · exact h.of_records_eq (State.record_eq _ _ (by simp)) (by simp) (by simp) (by simp) (copies false)
        (fun g hg => by cases hg; exact sound)
    · exact h.of_records_eq (s.failFlight_record f) (by simp) (by simp) (by simp)
        (by rw [State.failFlight_slotCopies]; exact copies false) (by simp [State.failFlight_flight])

/-- R159: a flight that is abandoned keeps the table. -/
theorem State.TableSound.abandonFlight {s : State} (h : s.TableSound) : s.abandonFlight.TableSound := by
  unfold State.abandonFlight
  split <;> [exact h; skip]
  rename_i f hf
  exact h.of_records_eq (State.record_eq _ _ (State.writeTarget_image s f false)) (by simp) (by simp) (by simp)
    (State.writeTarget_copies_sound h.records.copies (h.records.flight f hf) false) (fun _ hg => by cases hg)

/-- R163–R165: a rise of VCC keeps the table. -/
theorem State.TableSound.supplyRises {s : State} (h : s.TableSound) : s.supplyRises.TableSound := by
  unfold State.supplyRises
  split
  · exact h.volatileCleared _ _
  · exact h.congr rfl
  · exact h
  · exact h
  · exact h.congr rfl

/-- R159, R165: a fall of VCC keeps the table. -/
theorem State.TableSound.supplyFalls {s : State} (h : s.TableSound) : s.supplyFalls.TableSound := by
  unfold State.supplyFalls
  split
  · exact h
  · exact h.congr rfl
  · exact h.congr rfl
  · exact h.abandonFlight.congr rfl
  · exact h

/-- R167: the loss of power keeps the table. -/
theorem State.TableSound.losePower {s : State} (h : s.TableSound) : s.losePower.TableSound := by
  have cleared : (s.volatileCleared .off false).TableSound :=
    h.volatileCleared _ _
  unfold State.losePower
  split <;> [exact h; exact h; exact cleared; exact cleared; exact cleared]

/-- R166: the end of the settle interval keeps the table. -/
theorem State.TableSound.endSettle {s : State} (h : s.TableSound) : s.endSettle.TableSound := by
  unfold State.endSettle
  split <;> [skip; exact h]
  split
  · exact State.TableSound.startFlight (h.congr rfl)
  · exact h.congr rfl

/-- Every operation but the scan keeps the table. -/
theorem keeps_tableSound : Keeps State.TableSound where
  pending _ _ h := h.congr rfl
  link _ _ h := h.congr rfl
  lostAnswer _ _ h := h.congr rfl
  host _ _ h := h.congr rfl
  resetLow _ _ h := h.congr rfl
  decideCall _ n h _ := h.decideCall n
  decidePutaway _ h _ := h.decidePutaway
  decideDone _ n h _ := h.decideDone n
  decideAbandon _ n h _ := h.decideAbandon n
  decideCharge _ n h _ := h.decideCharge n
  decideDamage _ h _ := h.decideDamage
  reportTake _ h := h.reportTake
  releaseRecord _ h := h.releaseRecord
  expireTimer _ h := h.expireTimer
  resetExchange _ h _ := h.resetExchange
  applyStore _ _ _ h _ _ hj := h.applyStore hj
  vacate _ _ h _ _ hl hn := h.vacate hl hn
  completeMove _ x _ h _ hx := h.completeMove (x := x) (by rw [hx]; rfl)
  revert _ x _ h _ hx := h.revert (x := x) (by rw [hx]; rfl)
  spindleEmpty _ h _ hc := h.spindleEmpty hc.1 (by simpa using hc.2.1)
  retry _ k h _ _ := h.retry k
  applyConfig _ c h _ _ _ _ := by
    exact h.congr (by simp [State.tableFields])
  hold _ _ _ h _ hk hv := h.hold hk hv
  measure _ _ v h _ hk := h.measure v hk
  setAttn _ k v h := h.setAttn k v
  startFlight _ h := h.startFlight
  endAttempt _ v h := h.endAttempt v
  supplyRises _ h := h.supplyRises
  supplyFalls _ h := h.supplyFalls
  losePower _ h := h.losePower
  endSettle _ h := h.endSettle

/-! ### The scan -/

/-- What each examination of a pass establishes of its slot, and every repair keeps, the pass leaves true of every
slot. -/
theorem scanPass_establishes {P : Nat} {E : Slot → ScanWork → Prop} {f : ScanWork → Slot → ScanWork}
    (step : ∀ w k, ScanStep P w (f w k)) (kept : ∀ {w w' k}, ScanStep P w w' → E k w → E k w')
    (made : ∀ w k, E k (f w k)) (w : ScanWork) (k : Slot) : E k (slots.foldl f w) := by
  suffices ∀ (l : List Slot) (w : ScanWork), k ∈ l → E k (l.foldl f w) from this slots w (mem_slots k)
  intro l
  induction l with
  | nil => intro w hk; cases hk
  | cons j l ih =>
    intro w hk
    rw [List.foldl_cons]
    rcases List.mem_cons.1 hk with rfl | hk
    · exact kept (ScanStep.foldl f step l _) (made w k)
    · exact ih _ hk

/-- R170, pass 1: the slot is no tool in transit. -/
def ScanWork.Rests (k : Slot) (w : ScanWork) : Prop :=
  (w.record k).occupied = true → ∀ p, (w.record k).location ≠ .transitIn p ∧ (w.record k).location ≠ .transitBack p

/-- R170, pass 4: the slot is no tool in the spindle above another one. -/
def ScanWork.AloneInSpindle (k : Slot) (w : ScanWork) : Prop :=
  (w.record k).occupied = true → (w.record k).location = .spindle →
    ∀ j, j < k → (w.record j).occupied = true → (w.record j).location ≠ .spindle

/-- R171, field repair 2: the slot has HOLD set if it has a lower one with its tool number and rank. -/
def ScanWork.HeldIfDuplicate (k : Slot) (w : ScanWork) : Prop :=
  (w.record k).occupied = true → (∃ j, ranksBelow w.record j k) → (w.record k).hold = true

/-- A repair leaves a location as it was, unless it is UNKNOWN then. -/
theorem ScanStep.location_of {P : Nat} {w w' : ScanWork} (h : ScanStep P w w') {k : Slot} {l : Location}
    (hl : l.isUnknown = false) (e : (w'.record k).location = l) : (w.record k).location = l := by
  rcases (h k).location with e' | ⟨q, e', -⟩
  · exact e'.symm.trans e
  · exact absurd (e'.symm.trans e) (by rintro rfl; cases hl)

theorem ScanStep.rests {P : Nat} {w w' : ScanWork} {k : Slot} (h : ScanStep P w w') (hk : w.Rests k) : w'.Rests k := by
  intro ho p
  rw [h.occupied] at ho
  exact ⟨fun e => (hk ho p).1 (h.location_of rfl e), fun e => (hk ho p).2 (h.location_of rfl e)⟩

theorem ScanStep.aloneInSpindle {P : Nat} {w w' : ScanWork} {k : Slot} (h : ScanStep P w w')
    (hk : w.AloneInSpindle k) : w'.AloneInSpindle k := by
  intro ho e j hj hoj ej
  rw [h.occupied] at ho hoj
  exact hk ho (h.location_of rfl e) j hj hoj (h.location_of rfl ej)

theorem ScanStep.ranksBelow_iff {P : Nat} {w w' : ScanWork} (h : ScanStep P w w') (j k : Slot) :
    ranksBelow w'.record j k ↔ ranksBelow w.record j k := by
  simp only [ranksBelow, ScanWork.record, (h _).condition, (h _).tool, (h _).rank]

theorem ScanStep.heldIfDuplicate {P : Nat} {w w' : ScanWork} {k : Slot} (h : ScanStep P w w')
    (hk : w.HeldIfDuplicate k) : w'.HeldIfDuplicate k := by
  intro ho hd
  rw [h.occupied] at ho
  simp only [h.ranksBelow_iff] at hd
  exact (h k).hold (hk ho hd)

theorem ScanWork.repair_record (w : ScanWork) (k : Slot) (new : Record) (c : CommitClass) :
    (w.repair k new c).record k = new := by
  show ((w.image.set k _)[k]).fields = new
  rw [ScanWork.image_set, if_pos rfl]

theorem scanTransit_rests (P : Nat) (w : ScanWork) (k : Slot) : (scanTransit P w k).Rests k := by
  have repaired : (w.repairLocation P k).Rests k := by
    intro _ p; rw [ScanWork.repairLocation, ScanWork.repair_record]; simp
  have vacant (ho : ¬ (w.record k).occupied = true) : w.Rests k := fun h => absurd h ho
  unfold scanTransit
  split
  · split <;> [exact repaired; exact vacant (by assumption)]
  · split <;> [exact repaired; exact vacant (by assumption)]
  · rename_i hin hback; exact fun _ p => ⟨hin p, hback p⟩

theorem ScanWork.sharedBelow_iff (w : ScanWork) (k : Slot) : w.sharedBelow k = true ↔
    ∃ j, j < k ∧ (w.record j).occupied = true ∧ (w.record j).location = (w.record k).location := by
  simp [ScanWork.sharedBelow, mem_slots, and_assoc]

theorem ScanWork.rankBelow_iff (w : ScanWork) (k : Slot) : w.rankBelow k = true ↔ ∃ j, ranksBelow w.record j k := by
  simp [ScanWork.rankBelow, mem_slots, Record.occupied, and_assoc]

theorem scanSpindle_alone (P : Nat) (w : ScanWork) (k : Slot) : (scanSpindle P w k).AloneInSpindle k := by
  unfold scanSpindle
  split
  · rename_i hl
    split
    · intro _ e
      rw [ScanWork.repairLocation, ScanWork.repair_record] at e
      cases e
    · rename_i hc
      intro ho _ j hj hoj e
      exact hc (by rw [Bool.and_eq_true, ScanWork.sharedBelow_iff]; exact ⟨ho, j, hj, hoj, e.trans hl.symm⟩)
  · rename_i hl
    exact fun _ e => absurd e hl

theorem scanDuplicate_held (w : ScanWork) (k : Slot) : (scanDuplicate w k).HeldIfDuplicate k := by
  unfold scanDuplicate
  split
  · split
    · rename_i hh
      exact (ScanStep.of_mark (P := 0) w k).heldIfDuplicate fun _ _ => hh
    · intro _ _; rw [ScanWork.repair_record]
  · rename_i hc
    intro ho hd
    exact absurd (by rw [Bool.and_eq_true, ScanWork.rankBelow_iff]; exact ⟨ho, hd⟩) hc

/-- R170: no tool is in transit after the scan. -/
theorem scanRepairs_rests (P : Nat) (image : Image) (k : Slot) : (scanRepairs P image).Rests k := by
  have passed := scanPass_establishes (E := ScanWork.Rests) (scanTransit_step P) ScanStep.rests (scanTransit_rests P)
    ⟨image, []⟩ k
  unfold scanRepairs
  exact ((ScanStep.foldl _ (scanBeyond_step P) _ _).trans ((ScanStep.foldl _ (scanShared_step P) _ _).trans
    ((ScanStep.foldl _ (scanSpindle_step P) _ _).trans ((ScanStep.foldl _ (scanLarge_step P) _ _).trans
      ((ScanStep.foldl _ (scanHome_step P) _ _).trans ((ScanStep.foldl _ (scanDuplicate_step P) _ _).trans
        (ScanStep.foldl _ (scanSeed_step P) _ _))))))).rests passed

/-- R170: at most one tool is in the spindle after the scan. -/
theorem scanRepairs_alone (P : Nat) (image : Image) (k : Slot) : (scanRepairs P image).AloneInSpindle k := by
  unfold scanRepairs
  exact ((ScanStep.foldl _ (scanLarge_step P) _ _).trans ((ScanStep.foldl _ (scanHome_step P) _ _).trans
    ((ScanStep.foldl _ (scanDuplicate_step P) _ _).trans (ScanStep.foldl _ (scanSeed_step P) _ _)))).aloneInSpindle
      (scanPass_establishes (E := ScanWork.AloneInSpindle) (scanSpindle_step P) ScanStep.aloneInSpindle
        (scanSpindle_alone P) _ k)

/-- R171: every duplicate rank is held after the scan. -/
theorem scanRepairs_held (P : Nat) (image : Image) (k : Slot) : (scanRepairs P image).HeldIfDuplicate k := by
  unfold scanRepairs
  exact (ScanStep.foldl _ (scanSeed_step P) _ _).heldIfDuplicate
    (scanPass_establishes (E := ScanWork.HeldIfDuplicate) (scanDuplicate_step P) ScanStep.heldIfDuplicate
      scanDuplicate_held _ k)

/-- R170, R171: the repairs keep the record laws. -/
theorem SlotScanned.sound {P : Nat} {x y : SlotState} (h : SlotScanned P x y) (hx : x.fields.sound) :
    y.fields.sound := by
  by_cases hv : x.fields.condition = .vacant
  · rw [h.vacant hv]; exact hx
  · obtain ⟨mode, limit, remaining, warn, charged⟩ := h.life
    refine ⟨?_, fun e => absurd (h.condition.symm.trans e) hv, ?_⟩ <;>
      simp only [Record.lifeLaw, Record.rangeLaw, h.condition, h.tool, h.rank, mode, limit, remaining, warn, charged]
    · exact hx.1
    · exact hx.2.2

/-- The work of the scan that completes in state `s` (R168–R172). -/
def State.scanWork (s : State) : ScanWork := scanRepairs (loadConfig s.cfgCopies).1.pockets s.loadedImage

/-! The two lemmas below name the repairs `f` first: the fields then agree without a run of the scan. -/

theorem State.enterScan_image (s : State) : s.enterScan.image = s.scanWork.image := by
  obtain ⟨repairs, e⟩ : ∃ f, f = scanRepairs := ⟨_, rfl⟩
  rewrite [State.enterScan, State.scanWork, ← e]
  rfl

theorem State.enterScan_slot (s : State) (k : Slot) : s.enterScan.slot k = (s.scanWork.image)[k] := by
  rw [State.slot, State.enterScan_image]

theorem State.enterScan_record (s : State) (k : Slot) : s.enterScan.record k = s.scanWork.record k := by
  rw [State.record, State.enterScan_slot, ScanWork.record]

theorem State.enterScan_spindle (s : State) : s.enterScan.spindle = s.scanWork.spindle := by
  obtain ⟨repairs, e⟩ : ∃ f, f = scanRepairs := ⟨_, rfl⟩
  rewrite [State.enterScan, State.scanWork, ← e]
  rfl

theorem State.loadedImage_slot (s : State) (k : Slot) : (s.loadedImage)[k] = loadSlot (s.slotCopies[k]) := by
  simp [State.loadedImage]

/-- R169–R171: each slot of the scanned image follows from the slot as loaded. -/
theorem State.scanWork_slot (s : State) (k : Slot) :
    SlotScanned (loadConfig s.cfgCopies).1.pockets (loadSlot (s.slotCopies[k])) ((s.scanWork.image)[k]) := by
  rw [← s.loadedImage_slot k]
  exact scanRepairs_step _ _ k

theorem State.scanWork_rests (s : State) (k : Slot) : s.scanWork.Rests k := scanRepairs_rests _ _ k

theorem State.scanWork_alone (s : State) (k : Slot) : s.scanWork.AloneInSpindle k := scanRepairs_alone _ _ k

theorem State.scanWork_held (s : State) (k : Slot) : s.scanWork.HeldIfDuplicate k := scanRepairs_held _ _ k

/-- R173: the spindle after the scan HOLDS a slot exactly when that one is the tool in it. -/
theorem ScanWork.spindle_holds {w : ScanWork} (h : ∀ k, w.AloneInSpindle k) (k : Slot) :
    w.spindle = .holds k ↔ (w.record k).occupied = true ∧ (w.record k).location = .spindle := by
  unfold ScanWork.spindle
  cases hf : slots.find? (fun k => (w.record k).occupied && (w.record k).location == .spindle) with
  | some j =>
    obtain ⟨hj, first⟩ := (slots_find?_eq_some _ _).1 hf
    simp only [Bool.and_eq_true, beq_iff_eq] at hj
    simp only [Spindle.holds.injEq]
    refine ⟨fun e => e ▸ hj, fun hk => ?_⟩
    rcases lt_trichotomy j k with e | e | e
    · exact absurd hj.2 (h k hk.1 hk.2 j e hj.1)
    · exact e
    · exact absurd hk.2 (h j hj.1 hj.2 k e hk.1)
  | none =>
    have none_in : ¬ ((w.record k).occupied = true ∧ (w.record k).location = .spindle) := by
      have := List.find?_eq_none.1 hf k (mem_slots k)
      simpa using this
    refine iff_of_false (fun e => ?_) none_in
    dsimp only at e
    split at e <;> cases e

theorem ScanWork.spindle_ne_exchanging (w : ScanWork) : w.spindle ≠ .exchanging := by
  unfold ScanWork.spindle
  split
  · simp
  · split <;> simp

/-- R168–R174: the completion of a scan establishes the table from sound copies. -/
theorem State.TableSound.enterScan {s : State} (h : s.TableSound) : s.enterScan.TableSound := by
  have sound (k) : (s.enterScan.record k).sound := by
    rw [State.record, State.enterScan_slot]
    exact (s.scanWork_slot k).sound (loadSlot_sound (h.records.copies k))
  have tool {k} (hl : (s.enterScan.record k).location ≠ .nowhere) : (s.scanWork.record k).occupied = true := by
    rw [← State.enterScan_record]; exact (Record.occupied_iff _).2 ((sound k).occupied hl)
  have rests (k p) : (s.enterScan.record k).location ≠ .transitIn p ∧
      (s.enterScan.record k).location ≠ .transitBack p := by
    refine ⟨fun e => ?_, fun e => ?_⟩
    · exact (s.scanWork_rests k (tool (by rw [e]; simp)) p).1 (s.enterScan_record k ▸ e)
    · exact (s.scanWork_rests k (tool (by rw [e]; simp)) p).2 (s.enterScan_record k ▸ e)
  refine ⟨⟨sound, h.records.copies, fun f hf => nomatch hf⟩,
    .of_idle rfl (by rw [State.enterScan_spindle]; exact s.scanWork.spindle_ne_exchanging) rests,
    fun k => ?_, fun j k hk hj => ?_, ⟨⟨le_refl 1, Nat.le_of_ble_eq_true rfl⟩, fun x hx => nomatch hx⟩⟩
  · rw [State.enterScan_spindle, ScanWork.spindle_holds s.scanWork_alone, ← State.enterScan_record]
    exact ⟨fun e => ⟨s.enterScan_record k ▸ tool (by rw [e]; simp), e⟩, fun e => e.2⟩
  · simp only [ranksBelow, State.enterScan_record] at hk hj ⊢
    exact s.scanWork_held k ((Record.occupied_iff _).2 hk) ⟨j, hj⟩

/-- R168: the step in which the scan completes keeps the table. -/
theorem State.TableSound.completeScan {s : State} (h : s.TableSound) : s.completeScan.TableSound := by
  unfold State.completeScan
  split <;> [exact h.enterScan.startFlight; exact h]

/-- Settles O56: every operation keeps the table, and the scan establishes it from the copies. -/
theorem stepKeepsTheTable : Obligations.StepKeepsTheTable :=
  fun s t h he => keeps_tableSound.step s t h (fun _ _ hu => hu.completeScan) he

end Sys2Proof.Machine

/-! ## The commit law: the queue, the flight, DIRTY and the newest copies (O57) -/

namespace Sys2Proof.Machine

/-! ### The commit queue -/

theorem CommitQueue.holds_iff_mem (q : CommitQueue) (e : Entry) : q.holds e = true ↔ e ∈ q.urgent ++ q.normal := by
  rw [CommitQueue.holds_iff, List.mem_append]

/-- R152: a handing puts no entry but its own into the queue, and takes none out. -/
theorem CommitQueue.hand_holds_other (q : CommitQueue) {e x : Entry} (c : CommitClass) (h : x ≠ e) :
    (q.hand e c).holds x = q.holds x := by
  rw [Bool.eq_iff_iff, CommitQueue.holds_iff, CommitQueue.holds_iff]
  unfold CommitQueue.hand
  cases c
  · dsimp only; split
    · rfl
    · simp [h]
  · dsimp only; split
    · rfl
    · simp [h]

/-- R151, R153: the head and the rest of the queue, in one order. -/
theorem CommitQueue.append_of_head {q : CommitQueue} {e : Entry} {c : CommitClass} (h : q.head = some (e, c)) :
    q.urgent ++ q.normal = e :: (q.tail.urgent ++ q.tail.normal) := by
  rcases q with ⟨_ | ⟨u, us⟩, _ | ⟨n, ns⟩⟩ <;> simp [CommitQueue.head, CommitQueue.tail] at h ⊢ <;> exact h.1

/-- R156: a removal takes out its own entry alone. -/
theorem CommitQueue.remove_holds (q : CommitQueue) {e x : Entry} (h : x ≠ e) : (q.remove e).holds x = q.holds x := by
  rw [Bool.eq_iff_iff, CommitQueue.holds_iff, CommitQueue.holds_iff]
  simp [CommitQueue.remove, h]

theorem CommitQueue.remove_nodup {q : CommitQueue} (e : Entry) (h : (q.urgent ++ q.normal).Nodup) :
    ((q.remove e).urgent ++ (q.remove e).normal).Nodup := by
  rw [CommitQueue.remove, ← List.filter_append]
  exact h.filter _

/-- R159: an entry given back stands in the queue beside those that stood there. -/
theorem CommitQueue.giveBack_holds (q : CommitQueue) (e x : Entry) (c : CommitClass) :
    (q.giveBack e c).holds x = (q.holds x || decide (x = e)) := by
  rw [Bool.eq_iff_iff, Bool.or_eq_true, CommitQueue.holds_iff, CommitQueue.holds_iff, decide_eq_true_eq]
  unfold CommitQueue.giveBack
  split
  · rename_i hu
    simp only [List.contains_iff_mem] at hu
    exact ⟨.inl, fun h => h.elim id fun e => .inl (e ▸ hu)⟩
  · cases c
    · by_cases hx : x = e <;> simp [hx]
    · dsimp only
      split
      · rename_i hn
        simp only [List.contains_iff_mem] at hn
        exact ⟨.inl, fun h => h.elim id fun e => .inr (e ▸ hn)⟩
      · simp only [List.mem_cons]; tauto

theorem CommitQueue.giveBack_nodup {q : CommitQueue} (e : Entry) (c : CommitClass) (h : (q.urgent ++ q.normal).Nodup) :
    ((q.giveBack e c).urgent ++ (q.giveBack e c).normal).Nodup := by
  unfold CommitQueue.giveBack
  split <;> [exact h; skip]
  rename_i hu
  simp only [List.contains_iff_mem] at hu
  cases c
  · have hn : e ∉ q.urgent ++ q.normal.filter (fun x => x != e) := by simp [hu]
    exact List.nodup_cons.2 ⟨hn, h.sublist (List.Sublist.append_left List.filter_sublist _)⟩
  · dsimp only
    split <;> [exact h; skip]
    rename_i hn
    simp only [List.contains_iff_mem] at hn
    rw [List.nodup_middle]
    exact List.nodup_cons.2 ⟨by simp [hu, hn], h⟩

/-! ### The copies -/

/-- R150: a generation is not the one after the next. -/
theorem generation_ne_succ_succ : ∀ g : Generation, g ≠ g + 1#2 + 1#2 := by decide

/-- R150, R155: the older copy, written with the next generation, is the newest. -/
theorem CopyPair.newestValid_put_valid {α : Type} {c : CopyPair α} {n : Option Newest}
    (hn : n = c.newestValid.map Prod.fst) (x : α) :
    (c.put (targetOf n) (.valid x (generationOf n))).newestValid = some (⟨targetOf n, generationOf n⟩, x) := by
  subst hn
  rcases c with ⟨_ | ⟨y, g⟩ | _, _ | ⟨z, h⟩ | _⟩
  case valid.valid =>
    by_cases e : h = g + 1#2 <;>
      simp [CopyPair.newestValid, CopyPair.put, targetOf, generationOf, CopyName.other, e, generation_ne_succ_succ]
  all_goals
    simp [CopyPair.newestValid, CopyPair.put, targetOf, generationOf, CopyName.other, generation_ne_succ_succ]

/-- R150, R159: the older copy, left invalid, leaves the newest. -/
theorem CopyPair.newestValid_put_invalid {α : Type} {c : CopyPair α} {n : Option Newest}
    (hn : n = c.newestValid.map Prod.fst) : (c.put (targetOf n) .invalid).newestValid = c.newestValid := by
  subst hn
  rcases c with ⟨_ | ⟨y, g⟩ | _, _ | ⟨z, h⟩ | _⟩
  case valid.valid =>
    by_cases e : h = g + 1#2 <;> simp [CopyPair.newestValid, CopyPair.put, targetOf, CopyName.other, e]
  all_goals simp [CopyPair.newestValid, CopyPair.put, targetOf, CopyName.other]

/-! ### What the commit law depends on -/

/-- The parts of the state that the commit law speaks of, but the image, the queue and the exchange. -/
def State.commitFields (s : State) : OpState × Bool × Option Flight × Vector (Option Newest) 128 × Option Newest ×
    Vector (CopyPair Record) 128 × CopyPair Configuration :=
  (s.opState, s.imageHeld, s.flight, s.newest, s.cfgNewest, s.slotCopies, s.cfgCopies)

theorem State.Durable.congr {s t : State} {k : Slot} (h : s.Durable k)
    (hc : t.slotCopies[k] = s.slotCopies[k]) (hr : t.record k = s.record k) : t.Durable k := by
  unfold State.Durable at h ⊢
  rwa [hc, hr]

theorem State.FlightSound.congr {s t : State} {f : Flight} (h : s.FlightSound f) (hn : t.newest = s.newest)
    (hcn : t.cfgNewest = s.cfgNewest)
    (hw : ∀ k, t.queue.holds (.slot k) = false → s.queue.holds (.slot k) = false ∧ t.record k = s.record k) :
    t.FlightSound f := by
  unfold State.FlightSound at h ⊢
  split
  · rename_i k r st hc
    rw [hc] at h
    obtain ⟨target, gen, carried⟩ := h
    rw [hn]
    exact ⟨target, gen, fun e => by rw [carried (hw k e).1, (hw k e).2]⟩
  · rename_i c hc
    rw [hc] at h
    rwa [hcn]

/-- R160: in RUNNING the image is held, so it is while a commit is in flight and while an exchange is open. -/
theorem State.CommitSound.held {s : State} (h : s.CommitSound) (hr : s.opState = .running) : s.imageHeld = true := by
  by_contra hc; exact (h.idle (by simpa using hc)).1 hr

theorem State.CommitSound.held_of_flight {s : State} (h : s.CommitSound) {f : Flight} (hf : s.flight = some f) :
    s.imageHeld = true := h.held (h.runs f hf).1

theorem State.CommitSound.held_of_exchange {s : State} (h : s.CommitSound) (hx : s.exchange ≠ .idle) :
    s.imageHeld = true := by
  by_contra hc; exact hx (h.idle (by simpa using hc)).2.2.1

/-- R160: outside RUNNING nothing is in flight. -/
theorem State.CommitSound.grounded {s : State} (h : s.CommitSound) (hr : s.opState ≠ .running) : s.flight = none := by
  cases hf : s.flight with
  | none => rfl
  | some f => exact absurd (h.runs f hf).1 hr

/-- A state with the records, DIRTY, the queue and the Commit Engine of a sound one, in which STORE_FAULT accounts for
DIRTY as well, and whose image is held or whose exchange is idle. -/
theorem State.CommitSound.of_dirty_eq {s t : State} (h : s.CommitSound) (e : t.commitFields = s.commitFields)
    (hq : t.queue = s.queue) (hx : s.imageHeld = false → t.exchange = .idle) (hr : ∀ k, t.record k = s.record k)
    (hd : ∀ k, (t.slot k).dirty = (s.slot k).dirty)
    (hl : ∀ k, (s.slot k).dirty = (s.awaitsCommit k || (s.slot k).storeFault) →
      (s.slot k).dirty = (s.awaitsCommit k || (t.slot k).storeFault)) : t.CommitSound := by
  simp only [State.commitFields, Prod.mk.injEq] at e
  obtain ⟨op, held, flight, newest, cfgNewest, copies, cfgCopies⟩ := e
  have awaits (k) : t.awaitsCommit k = s.awaitsCommit k := by
    simp only [State.awaitsCommit, State.inFlight, hq, flight]
  constructor
  · rw [State.QueueDistinct, hq]; exact h.distinct
  · rw [State.FlightRuns, flight, op]; exact h.runs
  · rw [held, op, hq, flight]
    intro hh
    obtain ⟨h1, h2, -, h4, h5⟩ := h.idle hh
    exact ⟨h1, h2, hx hh, h4, h5⟩
  · rw [held]
    intro hh k
    rw [hd, awaits]; exact hl k (h.dirty hh k)
  · rw [held]
    intro hh k hk
    rw [hd] at hk
    exact (h.durable hh k hk).congr (by rw [copies]) (hr k)
  · rw [held, newest, copies]; exact h.newest
  · rw [held, cfgNewest, cfgCopies]; exact h.cfgNewest
  · rw [flight]
    intro f hf
    exact (h.flight f hf).congr newest cfgNewest fun k e => ⟨by rwa [hq] at e, hr k⟩

/-- A state that agrees with a sound one in all that the commit law speaks of. -/
theorem State.CommitSound.congr {s t : State} (h : s.CommitSound) (e : t.commitFields = s.commitFields)
    (hi : t.image = s.image) (hq : t.queue = s.queue) (hx : s.imageHeld = false → t.exchange = .idle) :
    t.CommitSound :=
  h.of_dirty_eq e hq hx (State.record_eq s t hi) (fun k => by rw [State.slot_eq s t hi])
    (fun k hk => by rw [State.slot_eq s t hi]; exact hk)

/-- All that the commit law speaks of. -/
def State.commitView (s : State) := (s.commitFields, s.image, s.queue, s.exchange)

theorem State.CommitSound.congr_view {s t : State} (h : s.CommitSound) (e : t.commitView = s.commitView) :
    t.CommitSound := by
  simp only [State.commitView, Prod.mk.injEq] at e
  obtain ⟨fields, image, queue, exchange⟩ := e
  exact h.congr fields image queue fun lost => exchange.trans (h.idle lost).2.2.1

/-- R163–R166: a change of the operating state with nothing in flight. -/
theorem State.CommitSound.of_opState {s t : State} (h : s.CommitSound) (op : OpState)
    (e : t.commitView = ({ s with opState := op } : State).commitView) (hf : s.flight = none)
    (hh : s.imageHeld = false → op ≠ .running ∧ op ≠ .frozen) : t.CommitSound := by
  have turned : ({ s with opState := op } : State).CommitSound := by
    refine ⟨h.distinct, fun f e => ?_, fun e => ?_, h.dirty, h.durable, h.newest, h.cfgNewest, h.flight⟩
    · exact absurd (hf.symm.trans e) (by simp)
    · obtain ⟨-, -, rest⟩ := h.idle e
      exact ⟨(hh e).1, (hh e).2, rest⟩
  exact turned.congr_view e

/-! ### Claims -/

/-- R15, R137, R152: a slot that is handed to the Commit Engine with DIRTY set, whatever its fields become. -/
theorem State.CommitSound.handed {s t : State} (h : s.CommitSound) (hh : s.imageHeld = true) {k : Slot}
    {c : CommitClass} (e : t.commitFields = s.commitFields) (hq : t.queue = s.queue.hand (.slot k) c)
    (hk : (t.slot k).dirty = true) (ho : ∀ j, j ≠ k → t.slot j = s.slot j) : t.CommitSound := by
  simp only [State.commitFields, Prod.mk.injEq] at e
  obtain ⟨op, held, flight, newest, cfgNewest, copies, cfgCopies⟩ := e
  have apart {j} (hj : j ≠ k) : t.queue.holds (.slot j) = s.queue.holds (.slot j) := by
    rw [hq]; exact CommitQueue.hand_holds_other _ _ (by simpa using hj)
  have waits : t.queue.holds (.slot k) = true := by rw [hq]; exact CommitQueue.hand_holds _ _ _
  constructor
  · rw [State.QueueDistinct, hq]; exact CommitQueue.hand_nodup _ _ _ h.distinct
  · rw [State.FlightRuns, flight, op]; exact h.runs
  · rw [held, hh]; simp
  · intro _ j
    by_cases hj : j = k
    · subst hj; simp [hk, State.awaitsCommit, waits]
    · rw [ho j hj, h.dirty hh j]
      simp only [State.awaitsCommit, State.inFlight, apart hj, flight]
  · intro _ j hd
    by_cases hj : j = k
    · subst hj; simp [hk] at hd
    · rw [ho j hj] at hd
      exact (h.durable hh j hd).congr (by rw [copies]) (by rw [State.record, ho j hj]; rfl)
  · rw [held, newest, copies]; exact h.newest
  · rw [held, cfgNewest, cfgCopies]; exact h.cfgNewest
  · rw [flight]
    intro f hf
    refine (h.flight f hf).congr newest cfgNewest fun j e => ?_
    have hj : j ≠ k := by rintro rfl; simp [waits] at e
    exact ⟨by rwa [apart hj] at e, by rw [State.record, ho j hj]; rfl⟩

/-- R3: a claim keeps the commit law while the image is held. -/
theorem State.CommitSound.claim {s : State} (h : s.CommitSound) (hh : s.imageHeld = true) (k : Slot) (new : Record)
    (c : CommitClass) : (s.claim k new c).CommitSound := by
  by_cases e : new = s.record k
  · rw [State.claim_unchanged s k c new e]; exact h
  · refine h.handed hh (k := k) (c := c) (by simp [State.commitFields]) ?_ ?_ fun j hj =>
      State.claim_slot_other s k new c hj
    · rw [State.claim_queue, if_neg e]
    · rw [State.claim_slot_self, if_neg e]

/-- R139: ATTN is no part of the commit law. -/
theorem State.CommitSound.setAttn {s : State} (h : s.CommitSound) (k : Slot) (v : Bool) :
    (s.setAttn k v).CommitSound := by
  have same (j) : ((s.setAttn k v).slot j).dirty = (s.slot j).dirty ∧
      ((s.setAttn k v).slot j).storeFault = (s.slot j).storeFault := by
    by_cases e : j = k
    · subst e; simp [State.setAttn]
    · simp [State.setAttn, State.slot_setSlot_other s _ e]
  exact h.of_dirty_eq rfl rfl (fun e => (h.idle e).2.2.1) (s.record_setAttn k v) (fun j => (same j).1)
    (fun j e => by rw [(same j).2]; exact e)

/-! ### The exchange -/

theorem State.CommitSound.moveIncoming {s : State} (h : s.CommitSound) (hh : s.imageHeld = true) (m : Movement)
    (f : Nat → Location) : (s.moveIncoming m f).CommitSound := by
  unfold State.moveIncoming; split <;> [exact h.claim hh _ _ _; exact h]

theorem State.CommitSound.moveOutgoing {s : State} (h : s.CommitSound) (hh : s.imageHeld = true) (m : Movement)
    (f : Nat → Location) : (s.moveOutgoing m f).CommitSound := by
  unfold State.moveOutgoing; split <;> [exact h.claim hh _ _ _; exact h]

theorem State.CommitSound.landOutgoing {s : State} (h : s.CommitSound) (hh : s.imageHeld = true) (m : Movement) :
    (s.landOutgoing m).CommitSound := by
  unfold State.landOutgoing; split <;> [exact h.claim hh _ _ _; exact h]

/-- The two claims of an exchange, and whatever it does to its context and to the spindle. -/
theorem State.CommitSound.moveBoth {s t : State} (h : s.CommitSound) (hh : s.imageHeld = true) (m : Movement)
    (f g : Nat → Location) (e : t.commitFields = ((s.moveIncoming m f).moveOutgoing m g).commitFields)
    (hi : t.image = ((s.moveIncoming m f).moveOutgoing m g).image)
    (hq : t.queue = ((s.moveIncoming m f).moveOutgoing m g).queue) : t.CommitSound :=
  ((h.moveIncoming hh m f).moveOutgoing (by simpa using hh) m g).congr e hi hq (by simp [hh])

theorem State.CommitSound.completeMove {s : State} (h : s.CommitSound) (hh : s.imageHeld = true) (m : Movement) :
    (s.completeMove m).CommitSound :=
  ((h.moveIncoming hh m _).landOutgoing (by simpa using hh) m).congr rfl rfl rfl (by simp [hh])

theorem State.CommitSound.revert {s : State} (h : s.CommitSound) (hh : s.imageHeld = true) (m : Movement) :
    (s.revert m).CommitSound := h.moveBoth hh m _ _ rfl rfl rfl

theorem State.CommitSound.suspectExchange {s : State} (h : s.CommitSound) (hh : s.imageHeld = true)
    (x : OpenExchange) (c : Suspicion) : (s.suspectExchange x c).CommitSound :=
  h.moveBoth hh x.movement _ _ rfl rfl rfl

/-- R156, R158: the waiting for commits marks the flight and leaves what it writes. -/
theorem State.CommitSound.awaitCommits {s : State} (h : s.CommitSound) (m : Movement) (w : Withheld) :
    (s.awaitCommits m w).CommitSound := by
  obtain ⟨t, ht⟩ : ∃ t, t = s.awaitCommits m w := ⟨_, rfl⟩
  have image : t.image = s.image := by simp [ht]
  have queue : t.queue = s.queue := by simp [ht]
  have op : t.opState = s.opState := by simp [ht]
  have held : t.imageHeld = s.imageHeld := by simp [ht]
  have newest : t.newest = s.newest := by simp [ht]
  have cfgNewest : t.cfgNewest = s.cfgNewest := by simp [ht]
  have copies : t.slotCopies = s.slotCopies := by simp [ht]
  have cfgCopies : t.cfgCopies = s.cfgCopies := by simp [ht]
  have exchange : t.exchange = s.exchange := by simp [ht]
  have marked : ∀ f, t.flight = some f → ∃ g b, s.flight = some g ∧ f = { g with confirmSet := b } := by
    intro f hf
    rw [ht, (State.awaited_awaitCommits s s m w rfl rfl).flight] at hf
    obtain ⟨g, hg, e⟩ := Option.map_eq_some_iff.1 hf
    refine ⟨g, f.confirmSet, hg, ?_⟩
    rw [← e]
    split <;> rfl
  have inFlight (x) : t.inFlight x = s.inFlight x := by
    simp only [State.inFlight, ht, (State.awaited_awaitCommits s s m w rfl rfl).flight]
    cases s.flight with
    | none => rfl
    | some g => simp only [Option.map_some]; rw [apply_ite Flight.content, ite_self]
  rw [← ht]
  constructor
  · rw [State.QueueDistinct, queue]; exact h.distinct
  · intro f hf
    obtain ⟨g, b, hg, rfl⟩ := marked f hf
    rw [op]; exact h.runs g hg
  · rw [held, op, queue, exchange]
    intro hh
    obtain ⟨h1, h2, h3, h4, h5⟩ := h.idle hh
    refine ⟨h1, h2, h3, h4, ?_⟩
    rw [ht, (State.awaited_awaitCommits s s m w rfl rfl).flight, h5]; rfl
  · rw [held]
    intro hh k
    rw [State.slot_eq s t image, State.awaitsCommit, queue, inFlight]; exact h.dirty hh k
  · rw [held]
    intro hh k hk
    rw [State.slot_eq s t image] at hk
    exact (h.durable hh k hk).congr (by rw [copies]) (State.record_eq s t image k)
  · rw [held, newest, copies]; exact h.newest
  · rw [held, cfgNewest, cfgCopies]; exact h.cfgNewest
  · intro f hf
    obtain ⟨g, b, hg, rfl⟩ := marked f hf
    have : s.FlightSound { g with confirmSet := b } := h.flight g hg
    exact this.congr newest cfgNewest fun k e => ⟨by rwa [queue] at e, State.record_eq s t image k⟩

/-- R78: an open keeps the commit law. -/
theorem State.CommitSound.openExchange {s : State} (h : s.CommitSound) (hh : s.imageHeld = true) (m : Movement) :
    (s.openExchange m).CommitSound := by
  unfold State.openExchange
  refine State.CommitSound.awaitCommits ?_ _ _
  exact h.moveBoth hh m .transitIn .transitBack rfl rfl rfl

theorem State.CommitSound.answer {s : State} (h : s.CommitSound) (a : Answer) : (s.answer a).CommitSound :=
  h.congr_view rfl

theorem State.CommitSound.decideCall {s : State} (h : s.CommitSound) (hh : s.imageHeld = true) (n : Nat) :
    (s.decideCall n).CommitSound := by
  unfold State.decideCall
  split <;> [exact h.answer _; skip]
  split <;> [exact h.answer _; skip]
  split
  · exact h.answer _
  · exact h.answer _
  · exact h.answer _
  · exact h.answer _
  · split <;> [exact h.answer _; exact h.openExchange hh _]

theorem State.CommitSound.decidePutaway {s : State} (h : s.CommitSound) (hh : s.imageHeld = true) :
    s.decidePutaway.CommitSound := by
  unfold State.decidePutaway
  split <;> [exact h.answer _; skip]
  split
  · exact h.answer _
  · exact h.answer _
  · exact h
  · split <;> [exact h.answer _; exact h.openExchange hh _]

theorem State.CommitSound.decideDone {s : State} (h : s.CommitSound) (hh : s.imageHeld = true) (n : Nat) :
    (s.decideDone n).CommitSound := by
  unfold State.decideDone
  split <;> [exact h.answer _; skip]
  split <;> [skip; exact h]
  exact ((h.completeMove hh _).awaitCommits _ (.doneOk n)).congr_view rfl

theorem State.CommitSound.decideAbandon {s : State} (h : s.CommitSound) (hh : s.imageHeld = true) (n : Nat) :
    (s.decideAbandon n).CommitSound := by
  unfold State.decideAbandon
  split <;> [exact h.answer _; skip]
  split <;> [skip; exact h]
  exact ((h.revert hh _).awaitCommits _ (.abandoned n)).congr_view rfl

theorem State.CommitSound.decideCharge {s : State} (h : s.CommitSound) (hh : s.imageHeld = true) (n : Nat) :
    (s.decideCharge n).CommitSound := by
  cases hs : s.spindle with
  | holds k => rw [State.decideCharge_holds s n k hs]; exact (h.claim hh _ _ _).answer _
  | empty | unknown | exchanging => rw [State.decideCharge, hs]; exact h.answer _

theorem State.CommitSound.decideDamage {s : State} (h : s.CommitSound) (hh : s.imageHeld = true) :
    s.decideDamage.CommitSound := by
  cases hs : s.spindle with
  | holds k => rw [State.decideDamage_holds s k hs]; exact (h.claim hh _ _ _).answer _
  | empty | unknown | exchanging => rw [State.decideDamage, hs]; exact h.answer _

/-- R84: the exchange that is taken in hand was open. -/
theorem State.CommitSound.reportTake {s : State} (h : s.CommitSound) : s.reportTake.CommitSound := by
  unfold State.reportTake
  split <;> [skip; exact h]
  rename_i x hx
  have hh := h.held_of_exchange (by rw [hx]; simp)
  exact h.congr rfl rfl rfl (by simp [hh])

/-- R82, R89: the answer of a store fault keeps the commit law. -/
theorem State.CommitSound.replaceAnswer {s : State} (h : s.CommitSound) (hh : s.imageHeld = true) (w : Withheld)
    (k : Slot) : (s.replaceAnswer w k).CommitSound := by
  unfold State.replaceAnswer
  split
  · dsimp only
    split
    · exact (h.revert hh _).congr_view rfl
    · exact h.congr_view rfl
  · exact h.congr_view rfl
  · exact h.congr_view rfl

theorem State.CommitSound.releaseRecord {s : State} (h : s.CommitSound) : s.releaseRecord.CommitSound := by
  unfold State.releaseRecord
  split <;> [skip; exact h]
  rename_i hr
  split <;> [exact h; skip]
  split <;> [exact h.replaceAnswer (h.held hr) _ _; skip]
  split <;> [exact h.congr_view rfl; exact h]

theorem State.CommitSound.expireTimer {s : State} (h : s.CommitSound) : s.expireTimer.CommitSound := by
  unfold State.expireTimer
  split <;> [skip; exact h]
  rename_i hx
  split <;> [exact h; exact h.suspectExchange (h.held_of_exchange (by rw [hx]; simp)) _ _]

/-- R92: the effect of /RESET on the exchange keeps the commit law. -/
theorem State.CommitSound.resetExchange {s : State} (h : s.CommitSound) : s.resetExchange.CommitSound := by
  have ht : ({ s with confirmation := none } : State).CommitSound := h.congr_view rfl
  unfold State.resetExchange
  dsimp only
  split
  · exact ht
  · rename_i hx; exact ht.revert (h.held_of_exchange (by rw [hx]; simp)) _
  · rename_i hx; exact ht.suspectExchange (h.held_of_exchange (by rw [hx]; simp)) _ _
  · exact ht

/-! ### The host's commands -/

/-- R15, R130: a RETRY_STORE leaves DIRTY set and the slot waiting for a commit. -/
theorem State.CommitSound.retry {s : State} (h : s.CommitSound) (hh : s.imageHeld = true) {k : Slot}
    (hk : (s.slot k).storeFault = true) : (s.retry k).CommitSound := by
  unfold State.retry
  split
  · rename_i waits
    replace waits : s.awaitsCommit k = true := waits
    have slots := State.slot_of_image_set (s.setSlot_image k { s.slot k with storeFault := false })
    refine h.of_dirty_eq rfl rfl (fun e => (h.idle e).2.2.1) (State.record_of_image_set rfl rfl) (fun j => ?_)
      fun j e => ?_
    · rw [slots]; split <;> [(rename_i e; rw [e]); rfl]
    · rw [slots]; split
      · rename_i ej; subst ej; rw [e, waits]; rfl
      · exact e
  · refine h.handed hh (k := k) (c := .normal) rfl rfl ?_ fun j hj => ?_
    · exact congrArg SlotState.dirty (s.slot_setSlot_self k _)
    · exact s.slot_setSlot_other _ hj

/-- R72: the configuration's entry is none of a slot. -/
theorem State.CommitSound.applyConfig {s : State} (h : s.CommitSound) (hh : s.imageHeld = true) (c : Configuration) :
    (s.applyConfig c).CommitSound := by
  unfold State.applyConfig
  split <;> [exact h; skip]
  have slots (k : Slot) : (s.queue.hand .cfg .urgent).holds (.slot k) = s.queue.holds (.slot k) :=
    CommitQueue.hand_holds_other _ _ (by simp)
  refine ⟨CommitQueue.hand_nodup _ _ _ h.distinct, h.runs, fun e => absurd (hh.symm.trans e) (by simp), fun _ k => ?_,
    h.durable, h.newest, h.cfgNewest,
    fun f hf => (h.flight f hf).congr rfl rfl fun k e => ⟨(slots k).symm.trans e, rfl⟩⟩
  show (s.slot k).dirty = ((s.queue.hand .cfg .urgent).holds (.slot k) || _ || _)
  rw [slots]
  exact h.dirty hh k

end Sys2Proof.Machine

namespace Sys2Proof.Machine

/-! ### Flights -/

theorem State.snapshot_entry (s : State) (e : Entry) : (s.snapshot e).entry = e := by cases e <;> rfl

/-- R153: what `startFlight` does: nothing, or the head of the queue becomes the flight. -/
theorem State.startFlight_cases (s : State) : s.startFlight = s ∨ ∃ e c, s.opState = .running ∧ s.flight = none ∧
    s.queue.head = some (e, c) ∧ s.startFlight = { s with
      queue := s.queue.tail
      flight := some { content := s.snapshot e, cls := c, attempt := 1, target := targetOf (s.newestOf e),
                       gen := generationOf (s.newestOf e), confirmSet := false } } := by
  unfold State.startFlight
  split <;> [skip; exact .inl rfl]
  rename_i hr
  split <;> [skip; exact .inl rfl]
  rename_i e c hq
  exact .inr ⟨e, c, hr.1, hr.2, hq, rfl⟩

/-- R150, R153: the head of the queue goes into flight with the fields of the image, to the older copy. -/
theorem State.CommitSound.startFlight {s : State} (h : s.CommitSound) : s.startFlight.CommitSound := by
  rcases s.startFlight_cases with e | ⟨x, c, hr, hf, hq, e⟩ <;> rw [e]
  · exact h
  have order := CommitQueue.append_of_head hq
  have distinct := h.distinct
  rw [State.QueueDistinct, order, List.nodup_cons] at distinct
  have waits (y) : s.queue.holds y = (s.queue.tail.holds y || x == y) := by
    rw [Bool.eq_iff_iff, Bool.or_eq_true, CommitQueue.holds_iff_mem, CommitQueue.holds_iff_mem, order, List.mem_cons,
      beq_iff_eq, or_comm, eq_comm]
  refine ⟨distinct.2, ?_, fun hh => absurd ((h.held hr).symm.trans hh) (by simp), fun hh k => ?_, h.durable, h.newest,
    h.cfgNewest, ?_⟩
  · rintro f ⟨⟩
    exact ⟨hr, le_refl 1, by simp [Config.attemptMax]⟩
  · have := h.dirty hh k
    rw [State.awaitsCommit, waits] at this
    show (s.slot k).dirty =
      (s.queue.tail.holds (.slot k) || ((s.snapshot x).entry == .slot k) || (s.slot k).storeFault)
    simpa [State.snapshot_entry, State.inFlight, hf] using this
  · rintro f ⟨⟩
    cases x with
    | slot k => exact ⟨rfl, rfl, fun _ => rfl⟩
    | cfg => exact ⟨rfl, rfl⟩

theorem State.writeTarget_cfgCopies (s : State) {f : Flight} {c : Configuration} (v : Bool) (hc : f.content = .cfg c) :
    (s.writeTarget f v).cfgCopies = s.cfgCopies.put f.target (if v then .valid c f.gen else .invalid) := by
  simp [State.writeTarget, hc]

theorem State.writeTarget_slotCopies_cfg (s : State) {f : Flight} {c : Configuration} (v : Bool)
    (hc : f.content = .cfg c) : (s.writeTarget f v).slotCopies = s.slotCopies := by
  simp [State.writeTarget, hc]

theorem State.writeTarget_cfgCopies_slot (s : State) {f : Flight} {k : Slot} {r : Record} {st : Stamp} (v : Bool)
    (hc : f.content = .slot k r st) : (s.writeTarget f v).cfgCopies = s.cfgCopies := by
  simp [State.writeTarget, hc]

/-- R137: a slot in flight has DIRTY set. -/
theorem State.CommitSound.dirty_of_flight {s : State} (h : s.CommitSound) {f : Flight} (hf : s.flight = some f)
    {k : Slot} (hk : f.content.entry = .slot k) : (s.slot k).dirty = true := by
  rw [h.dirty (h.held_of_flight hf)]
  simp [State.awaitsCommit, State.inFlight, hf, hk]

/-- R150, R159: a target that is left invalid is no newest copy. -/
theorem State.CommitSound.newest_of_spoiled {s : State} (h : s.CommitSound) {f : Flight} (hf : s.flight = some f) :
    (∀ k : Slot, ((s.writeTarget f false).slotCopies[k]).newestValid = (s.slotCopies[k]).newestValid) ∧
      (s.writeTarget f false).cfgCopies.newestValid = s.cfgCopies.newestValid := by
  have hh := h.held_of_flight hf
  have sound := h.flight f hf
  unfold State.FlightSound at sound
  cases hc : f.content with
  | slot j r st =>
    rw [hc] at sound
    obtain ⟨written, others⟩ := s.writeTarget_slotCopies f false j r st hc
    refine ⟨fun k => ?_, by rw [s.writeTarget_cfgCopies_slot false hc]⟩
    by_cases e : k = j
    · subst e
      rw [written, sound.1]
      exact CopyPair.newestValid_put_invalid (h.newest hh k)
    · rw [others k e]
  | cfg c =>
    rw [hc] at sound
    refine ⟨fun k => by rw [s.writeTarget_slotCopies_cfg false hc], ?_⟩
    rw [s.writeTarget_cfgCopies false hc, sound.1]
    exact CopyPair.newestValid_put_invalid (h.cfgNewest hh)

/-- An attempt that ends with its target invalid (R154, R156, R159) keeps the commit law, when the queue and the flight
that it leaves account for DIRTY. -/
theorem State.CommitSound.spoiled {s t : State} (h : s.CommitSound) {f : Flight} (hf : s.flight = some f)
    (hc : t.slotCopies = (s.writeTarget f false).slotCopies) (hcc : t.cfgCopies = (s.writeTarget f false).cfgCopies)
    (hn : t.newest = s.newest) (hcn : t.cfgNewest = s.cfgNewest) (hh : t.imageHeld = s.imageHeld)
    (hr : ∀ k, t.record k = s.record k) (hd : ∀ k, (t.slot k).dirty = (s.slot k).dirty) (hq : t.QueueDistinct)
    (runs : t.FlightRuns) (dirty : ∀ k, (t.slot k).dirty = (t.awaitsCommit k || (t.slot k).storeFault))
    (flight : ∀ g, t.flight = some g → t.FlightSound g) : t.CommitSound := by
  have held := h.held_of_flight hf
  obtain ⟨newest, cfgNewest⟩ := h.newest_of_spoiled hf
  refine ⟨hq, runs, fun e => absurd (held.symm.trans (hh.symm.trans e)) (by simp), fun _ => dirty, fun _ k hk => ?_,
    fun _ k => ?_, fun _ => ?_, flight⟩
  · rw [hd] at hk
    have apart : f.content.entry ≠ .slot k := fun e => by simp [h.dirty_of_flight hf e] at hk
    refine (h.durable held k hk).congr ?_ (hr k)
    rw [hc, State.writeTarget_false_slotCopies, if_neg apart]
  · rw [hn, hc, newest]; exact h.newest held k
  · rw [hcn, hcc, cfgNewest]; exact h.cfgNewest held

/-- R154: the next attempt of the same commit. -/
theorem State.CommitSound.retryFlight {s : State} (h : s.CommitSound) {f : Flight} (hf : s.flight = some f)
    (ha : f.attempt < Config.attemptMax) : (s.retryFlight f).CommitSound := by
  have awaits (k) : (s.retryFlight f).awaitsCommit k = s.awaitsCommit k := by
    simp [State.awaitsCommit, State.inFlight, State.retryFlight, hf]
  refine h.spoiled hf rfl rfl (by simp) (by simp) (by simp) (State.record_eq _ _ (by simp))
    (fun k => by rw [State.slot_eq s _ (by simp)]) (by simpa [State.QueueDistinct] using h.distinct) ?_ (fun k => ?_) ?_
  · rintro g ⟨⟩
    obtain ⟨hr, h1, -⟩ := h.runs f hf
    exact ⟨by simpa using hr, Nat.le_succ_of_le h1, ha⟩
  · rw [State.slot_eq s _ (by simp), awaits]; exact h.dirty (h.held_of_flight hf) k
  · rintro g ⟨⟩
    have sound : s.FlightSound { f with attempt := f.attempt + 1 } := h.flight f hf
    exact sound.congr (by simp) (by simp) fun k e => ⟨by simpa using e, State.record_eq _ _ (by simp) k⟩

theorem State.failFlight_queue_slot {s : State} {f : Flight} {k : Slot} {r : Record} {st : Stamp}
    (hc : f.content = .slot k r st) :
    (s.failFlight f).queue = if f.confirmSet then s.queue else s.queue.remove (.slot k) := by
  simp [State.failFlight, hc]

theorem State.failFlight_queue_cfg {s : State} {f : Flight} {c : Configuration} (hc : f.content = .cfg c) :
    (s.failFlight f).queue = s.queue.remove .cfg := by
  simp [State.failFlight, hc]

theorem State.failFlight_cfgCopies (s : State) (f : Flight) :
    (s.failFlight f).cfgCopies = (s.writeTarget f false).cfgCopies := by
  unfold State.failFlight; dsimp only; split <;> simp

/-- R156, R161: the failure of a commit keeps the commit law: its slot is faulted, and no other slot's entry goes. -/
theorem State.CommitSound.failFlight {s : State} (h : s.CommitSound) {f : Flight} (hf : s.flight = some f) :
    (s.failFlight f).CommitSound := by
  have hh := h.held_of_flight hf
  have ended := s.failFlight_flight f
  refine h.spoiled hf (s.failFlight_slotCopies f) (s.failFlight_cfgCopies f) (by simp) (by simp) (by simp)
    (s.failFlight_record f) (fun k => ?_) ?_ (by simp [State.FlightRuns, ended]) (fun k => ?_) (by simp [ended])
  · cases hc : f.content with
    | cfg c => rw [State.slot_eq s _ (State.failFlight_image_cfg hc)]
    | slot j r st =>
      rw [State.slot_of_image_set (State.failFlight_image hc)]
      split
      · rename_i e; rw [e, h.dirty_of_flight hf (by rw [hc]; rfl)]
      · rfl
  · unfold State.QueueDistinct
    cases hc : f.content with
    | cfg c => rw [State.failFlight_queue_cfg hc]; exact CommitQueue.remove_nodup _ h.distinct
    | slot j r st =>
      rw [State.failFlight_queue_slot hc]
      split <;> [exact h.distinct; exact CommitQueue.remove_nodup _ h.distinct]
  · have law := h.dirty hh k
    simp only [State.awaitsCommit, State.inFlight, ended, hf, Bool.or_false] at law ⊢
    cases hc : f.content with
    | cfg c =>
      rw [State.slot_eq s _ (State.failFlight_image_cfg hc), State.failFlight_queue_cfg hc,
        CommitQueue.remove_holds _ (by simp)]
      have other : (Entry.cfg == Entry.slot k) = false := by simp
      simpa [hc, Snapshot.entry, other] using law
    | slot j r st =>
      rw [State.slot_of_image_set (State.failFlight_image hc)]
      by_cases e : k = j
      · simp [e]
      · rw [if_neg e, State.failFlight_queue_slot hc]
        have other : (Entry.slot j == Entry.slot k) = false := by simpa using Ne.symm e
        rw [apply_ite (fun q : CommitQueue => q.holds (.slot k)), CommitQueue.remove_holds _ (by simpa using e),
          ite_self]
        simpa [hc, Snapshot.entry, other] using law

theorem State.completeFlight_cfgCopies (s : State) (f : Flight) :
    (s.completeFlight f).cfgCopies = (s.writeTarget f true).cfgCopies := by
  unfold State.completeFlight; dsimp only; split <;> simp

theorem State.completeFlight_newest_slot {s : State} {f : Flight} {k : Slot} {r : Record} {st : Stamp}
    (hc : f.content = .slot k r st) : (s.completeFlight f).newest = s.newest.set k (some ⟨f.target, f.gen⟩) ∧
      (s.completeFlight f).cfgNewest = s.cfgNewest := by
  simp [State.completeFlight, hc]

theorem State.completeFlight_newest_cfg {s : State} {f : Flight} {c : Configuration} (hc : f.content = .cfg c) :
    (s.completeFlight f).newest = s.newest ∧ (s.completeFlight f).cfgNewest = some ⟨f.target, f.gen⟩ := by
  simp [State.completeFlight, hc]

/-- R155: the completion of a slot's commit makes the copy it wrote the newest, with the image's fields unless an entry
of the slot still waits. -/
theorem State.CommitSound.completeFlight_slot {s : State} (h : s.CommitSound) {f : Flight} (hf : s.flight = some f)
    {k : Slot} {r : Record} {st : Stamp} (hc : f.content = .slot k r st) : (s.completeFlight f).CommitSound := by
  have hh := h.held_of_flight hf
  have ended := s.completeFlight_flight f
  have slots := State.slot_of_image_set (State.completeFlight_image (s := s) hc)
  have sound := h.flight f hf
  rw [State.FlightSound, hc] at sound
  obtain ⟨target, gen, carried⟩ := sound
  obtain ⟨written, others⟩ := s.writeTarget_slotCopies f true k r st hc
  obtain ⟨newest, cfgNewest⟩ := State.completeFlight_newest_slot (s := s) hc
  have fresh : ((s.completeFlight f).slotCopies[k]).newestValid = some (⟨f.target, f.gen⟩, r) := by
    rw [s.completeFlight_slotCopies, written, target, gen]
    exact CopyPair.newestValid_put_valid (h.newest hh k) r
  have kept {j} (hj : j ≠ k) : (s.completeFlight f).slotCopies[j] = s.slotCopies[j] := by
    rw [s.completeFlight_slotCopies, others j hj]
  refine ⟨by simpa [State.QueueDistinct] using h.distinct, by simp [State.FlightRuns, ended], by simp [hh],
    fun _ j => ?_, fun _ j hd => ?_, fun _ j => ?_, fun _ => ?_, by simp [ended]⟩
  · rw [slots]
    have law := h.dirty hh j
    simp only [State.awaitsCommit, State.inFlight, ended, hf, hc, Snapshot.entry, State.completeFlight_queue,
      Bool.or_false] at law ⊢
    by_cases e : j = k
    · subst e; simp [law]
    · have other : (Entry.slot k == Entry.slot j) = false := by simpa using Ne.symm e
      rw [if_neg e, law, other, Bool.or_false]
  · rw [slots] at hd
    by_cases e : j = k
    · subst e
      have waits : s.queue.holds (.slot j) = false := by
        simpa [h.dirty_of_flight hf (show f.content.entry = .slot j by rw [hc]; rfl)] using hd
      rw [State.Durable, fresh]
      exact (s.completeFlight_record f j).trans (carried waits).symm
    · rw [if_neg e] at hd
      exact (h.durable hh j hd).congr (kept e) (s.completeFlight_record f j)
  · by_cases e : j = k
    · subst e; rw [fresh, newest]; simp
    · have apart : (k : Nat) ≠ j := fun e' => e (Fin.ext e'.symm)
      rw [kept e, newest, ← h.newest hh j]; simp [apart]
  · rw [cfgNewest, s.completeFlight_cfgCopies, s.writeTarget_cfgCopies_slot true hc]; exact h.cfgNewest hh

/-- R155: the completion of the configuration's commit makes the copy it wrote the newest. -/
theorem State.CommitSound.completeFlight_cfg {s : State} (h : s.CommitSound) {f : Flight} (hf : s.flight = some f)
    {c : Configuration} (hc : f.content = .cfg c) : (s.completeFlight f).CommitSound := by
  have hh := h.held_of_flight hf
  have ended := s.completeFlight_flight f
  have slots := State.slot_eq s _ (State.completeFlight_image_cfg hc)
  have sound := h.flight f hf
  rw [State.FlightSound, hc] at sound
  obtain ⟨target, gen⟩ := sound
  obtain ⟨newest, cfgNewest⟩ := State.completeFlight_newest_cfg (s := s) hc
  have copies : (s.completeFlight f).slotCopies = s.slotCopies := by
    rw [s.completeFlight_slotCopies, s.writeTarget_slotCopies_cfg true hc]
  refine ⟨by simpa [State.QueueDistinct] using h.distinct, by simp [State.FlightRuns, ended], by simp [hh],
    fun _ j => ?_, fun _ j hd => ?_, fun _ j => ?_, fun _ => ?_, by simp [ended]⟩
  · rw [slots]
    have law := h.dirty hh j
    have other : (Entry.cfg == Entry.slot j) = false := by simp
    simpa [State.awaitsCommit, State.inFlight, ended, hf, hc, Snapshot.entry, other] using law
  · rw [slots] at hd
    exact (h.durable hh j hd).congr (by rw [copies]) (s.completeFlight_record f j)
  · rw [newest, copies]; exact h.newest hh j
  · rw [cfgNewest, s.completeFlight_cfgCopies, s.writeTarget_cfgCopies true hc, target, gen, if_pos rfl,
      CopyPair.newestValid_put_valid (h.cfgNewest hh)]; rfl

/-- R154–R156: the end of an attempt keeps the commit law. -/
theorem State.CommitSound.endAttempt {s : State} (h : s.CommitSound) (v : Verify) : (s.endAttempt v).CommitSound := by
  unfold State.endAttempt
  split <;> [exact h; skip]
  rename_i f hf
  split
  · cases hc : f.content with
    | slot k r st => exact h.completeFlight_slot hf hc
    | cfg c => exact h.completeFlight_cfg hf hc
  · split
    · exact h.retryFlight hf (by assumption)
    · exact h.failFlight hf

/-- R159: an abandoned flight's entry is given back to the queue. -/
theorem State.CommitSound.abandonFlight {s : State} (h : s.CommitSound) : s.abandonFlight.CommitSound := by
  unfold State.abandonFlight
  split <;> [exact h; skip]
  rename_i f hf
  have image : (s.writeTarget f false).image = s.image := State.writeTarget_image s f false
  refine h.spoiled hf rfl rfl (by simp) (by simp) (by simp) (State.record_eq _ _ image)
    (fun k => congrArg SlotState.dirty (State.slot_eq s _ image k)) (CommitQueue.giveBack_nodup _ _ h.distinct)
    (fun g hg => nomatch hg) (fun k => ?_) (fun g hg => nomatch hg)
  have law := h.dirty (h.held_of_flight hf) k
  have same : (s.writeTarget f false).slot k = s.slot k := State.slot_eq s _ image k
  show ((s.writeTarget f false).slot k).dirty = ((s.queue.giveBack f.content.entry f.cls).holds (.slot k) || false ||
    ((s.writeTarget f false).slot k).storeFault)
  simp only [State.awaitsCommit, State.inFlight, hf] at law
  rw [same, CommitQueue.giveBack_holds, Bool.or_false, law, ← beq_eq_decide, BEq.comm]

/-! ### The supply -/

/-- R160: a part that holds no image keeps the commit law, when nothing waits and nothing is open. -/
theorem State.CommitSound.of_lost {s : State} (hh : s.imageHeld = false)
    (ho : s.opState ≠ .running ∧ s.opState ≠ .frozen) (hx : s.exchange = .idle)
    (hq : s.queue = { urgent := [], normal := [] }) (hf : s.flight = none) : s.CommitSound where
  distinct := by simp [State.QueueDistinct, hq]
  runs := by simp [State.FlightRuns, hf]
  idle _ := ⟨ho.1, ho.2, hx, hq, hf⟩
  dirty := by simp [hh]
  durable := by simp [hh]
  newest := by simp [hh]
  cfgNewest := by simp [hh]
  flight := by simp [hf]

theorem State.CommitSound.supplyRises {s : State} (h : s.CommitSound) : s.supplyRises.CommitSound := by
  unfold State.supplyRises
  split
  · exact .of_lost rfl ⟨OpState.noConfusion, OpState.noConfusion⟩ rfl rfl rfl
  · exact h.congr_view rfl
  · exact h
  · exact h
  · rename_i ho
    exact h.of_opState .settling rfl (h.grounded (by rw [ho]; simp)) (by simp)

/-- R165: a fall of VCC keeps the commit law: what was in flight waits again before the part is FROZEN. -/
theorem State.CommitSound.supplyFalls {s : State} (h : s.CommitSound) : s.supplyFalls.CommitSound := by
  unfold State.supplyFalls
  split
  · exact h
  · exact h.congr_view rfl
  · rename_i ho
    exact h.of_opState .settling rfl (h.grounded (by rw [ho]; simp)) (by simp)
  · rename_i ho
    have down : s.abandonFlight.flight = none := by
      unfold State.abandonFlight; split <;> [assumption; rfl]
    exact h.abandonFlight.of_opState .frozen rfl down (by simp [h.held ho])
  · exact h

theorem State.CommitSound.losePower {s : State} (h : s.CommitSound) : s.losePower.CommitSound := by
  have cleared : (s.volatileCleared .off false).CommitSound :=
    .of_lost rfl ⟨OpState.noConfusion, OpState.noConfusion⟩ rfl rfl rfl
  unfold State.losePower
  split <;> [exact h; exact h; exact cleared; exact cleared; exact cleared]

/-- R160, R166: the end of the settle interval keeps the commit law. -/
theorem State.CommitSound.endSettle {s : State} (h : s.CommitSound) : s.endSettle.CommitSound := by
  unfold State.endSettle
  split <;> [skip; exact h]
  rename_i hs
  have down := h.grounded (by rw [hs.1]; simp)
  split
  · rename_i hh
    exact State.CommitSound.startFlight (h.of_opState .running rfl down (by simp [hh]))
  · exact h.of_opState .scanning rfl down (by simp)

/-- Every operation but the scan keeps the commit law. -/
theorem keeps_commitSound : Keeps State.CommitSound where
  pending _ _ h := h.congr_view rfl
  link _ _ h := h.congr_view rfl
  lostAnswer _ _ h := h.congr_view rfl
  host _ _ h := h.congr_view rfl
  resetLow _ _ h := h.congr_view rfl
  decideCall _ n h hr := h.decideCall (h.held hr) n
  decidePutaway _ h hr := h.decidePutaway (h.held hr)
  decideDone _ n h hr := h.decideDone (h.held hr) n
  decideAbandon _ n h hr := h.decideAbandon (h.held hr) n
  decideCharge _ n h hr := h.decideCharge (h.held hr) n
  decideDamage _ h hr := h.decideDamage (h.held hr)
  reportTake _ h := h.reportTake
  releaseRecord _ h := h.releaseRecord
  expireTimer _ h := h.expireTimer
  resetExchange _ h _ := h.resetExchange
  applyStore _ k new h hr _ _ := (h.claim (h.held hr) k new _).congr_view rfl
  vacate _ k h hr _ _ _ := (h.claim (h.held hr) k _ _).setAttn k false
  completeMove _ x _ h hr _ := h.completeMove (h.held hr) x.movement
  revert _ x _ h hr _ := h.revert (h.held hr) x.movement
  spindleEmpty _ h _ _ := h.congr_view rfl
  retry _ _ h hr hk := h.retry (h.held hr) hk
  applyConfig _ c h hr _ _ _ := h.applyConfig (h.held hr) c
  hold _ k _ h hr _ _ := h.claim (h.held hr) k _ _
  measure _ k _ h hr _ := h.claim (h.held hr) k _ _
  setAttn _ k v h := h.setAttn k v
  startFlight _ h := h.startFlight
  endAttempt _ v h := h.endAttempt v
  supplyRises _ h := h.supplyRises
  supplyFalls _ h := h.supplyFalls
  losePower _ h := h.losePower
  endSettle _ h := h.endSettle

end Sys2Proof.Machine

namespace Sys2Proof.Machine

/-! ### The scan hands what it dirties -/

/-- The scan takes its work from `w` by repairs and attention marks alone (R170–R172). -/
inductive ScanWork.Reaches (w : ScanWork) : ScanWork → Prop
  | refl : w.Reaches w
  | repair {v : ScanWork} (h : w.Reaches v) (k : Slot) (new : Record) (c : CommitClass) : w.Reaches (v.repair k new c)
  | mark {v : ScanWork} (h : w.Reaches v) (k : Slot) : w.Reaches (v.mark k)

namespace ScanWork.Reaches

variable {w v : ScanWork} {P : Nat}

theorem foldl {f : ScanWork → Slot → ScanWork} (step : ∀ {v}, w.Reaches v → ∀ k, w.Reaches (f v k)) :
    ∀ (l : List Slot) {v : ScanWork}, w.Reaches v → w.Reaches (l.foldl f v) := by
  intro l
  induction l with
  | nil => exact fun h => h
  | cons k l ih => exact fun h => ih (step h k)

theorem location (h : w.Reaches v) (k : Slot) : w.Reaches (v.repairLocation P k) := h.repair _ _ _

theorem transit (h : w.Reaches v) (k : Slot) : w.Reaches (scanTransit P v k) := by
  unfold scanTransit
  split
  · split <;> [exact h.location k; exact h]
  · split <;> [exact h.location k; exact h]
  · exact h

theorem beyond (h : w.Reaches v) (k : Slot) : w.Reaches (scanBeyond P v k) := by
  unfold scanBeyond
  split
  · split <;> [exact h.location k; exact h]
  · split <;> [exact h.location k; exact h]
  · exact h

theorem shared (h : w.Reaches v) (k : Slot) : w.Reaches (scanShared P v k) := by
  unfold scanShared
  split
  · split <;> [exact h.location k; exact h]
  · exact h

theorem spindle (h : w.Reaches v) (k : Slot) : w.Reaches (scanSpindle P v k) := by
  unfold scanSpindle
  split
  · split <;> [exact h.location k; exact h]
  · exact h

theorem neighbour (h : w.Reaches v) (k : Slot) (p q : Nat) : w.Reaches (scanNeighbour P k p v q) := by
  unfold scanNeighbour
  split <;> [skip; exact h]
  split <;> [skip; exact h]
  split <;> exact h.location _

theorem large (h : w.Reaches v) (k : Slot) : w.Reaches (scanLarge P v k) := by
  unfold scanLarge
  split <;> [skip; exact h]
  split <;> [exact (h.neighbour k _ _).neighbour k _ _; exact h]

theorem home (h : w.Reaches v) (k : Slot) : w.Reaches (scanHome P v k) := by
  unfold scanHome
  split <;> [exact h.repair _ _ _; exact h]

theorem duplicate (h : w.Reaches v) (k : Slot) : w.Reaches (scanDuplicate v k) := by
  unfold scanDuplicate
  split <;> [skip; exact h]
  split <;> [exact h.mark _; exact h.repair _ _ _]

theorem seed (h : w.Reaches v) (k : Slot) : w.Reaches (scanSeed v k) := by
  unfold scanSeed
  split <;> [exact h.mark _; exact h]

/-- R170–R172: the passes of the scan are repairs and marks of the loaded image. -/
theorem of_scanRepairs (P : Nat) (image : Image) : ScanWork.Reaches ⟨image, []⟩ (scanRepairs P image) := by
  unfold scanRepairs
  exact foldl seed slots (foldl duplicate slots (foldl home slots (foldl large slots (foldl spindle slots
    (foldl shared slots (foldl beyond slots (foldl transit slots .refl)))))))

end ScanWork.Reaches

/-- Slot `k` is among the handings. -/
def ScanWork.hands (w : ScanWork) (k : Slot) : Bool := w.handings.any (fun h => h.1 == k)

theorem ScanWork.hands_repair (w : ScanWork) (k j : Slot) (new : Record) (c : CommitClass) :
    (w.repair k new c).hands j = (w.hands j || k == j) := by
  simp [ScanWork.hands, ScanWork.repair]

/-- R172: DIRTY is set on the slots that are handed or faulted, and on no other. -/
def ScanWork.FlagsHanded (w : ScanWork) : Prop :=
  ∀ k : Slot, (w.image[k]).dirty = (w.hands k || (w.image[k]).storeFault)

theorem ScanWork.FlagsHanded.repair {w : ScanWork} (h : w.FlagsHanded) (k : Slot) (new : Record) (c : CommitClass) :
    (w.repair k new c).FlagsHanded := by
  intro j
  have slot : (w.repair k new c).image[j] =
      if j = k then { w.image[k] with fields := new, attn := true, dirty := true } else w.image[j] := ScanWork.image_set
  rw [slot, ScanWork.hands_repair]
  by_cases e : j = k
  · simp [e]
  · have apart : (k == j) = false := by simpa using Ne.symm e
    rw [if_neg e, apart, Bool.or_false]; exact h j

theorem ScanWork.FlagsHanded.mark {w : ScanWork} (h : w.FlagsHanded) (k : Slot) : (w.mark k).FlagsHanded := by
  intro j
  have slot : (w.mark k).image[j] = if j = k then { w.image[k] with attn := true } else w.image[j] :=
    ScanWork.image_set
  rw [slot]
  by_cases e : j = k
  · subst e; rw [if_pos rfl]; exact h j
  · rw [if_neg e]; exact h j

theorem ScanWork.FlagsHanded.reached {w v : ScanWork} (r : w.Reaches v) (h : w.FlagsHanded) : v.FlagsHanded := by
  induction r with
  | refl => exact h
  | repair _ k new c ih => exact ih.repair k new c
  | mark _ k ih => exact ih.mark k

/-- R169: the scan loads DIRTY and STORE_FAULT together. -/
theorem loadSlot_dirty (c : CopyPair Record) : (loadSlot c).dirty = (loadSlot c).storeFault := by
  unfold loadSlot
  split
  · rfl
  · split <;> rfl

theorem State.scanWork_flagsHanded (s : State) : s.scanWork.FlagsHanded := by
  refine ScanWork.FlagsHanded.reached (ScanWork.Reaches.of_scanRepairs _ _) fun k => ?_
  have none : ScanWork.hands ⟨s.loadedImage, []⟩ k = false := rfl
  rw [none, Bool.false_or]
  show (s.loadedImage[k]).dirty = (s.loadedImage[k]).storeFault
  rw [s.loadedImage_slot k, loadSlot_dirty]

/-! ### The queue that the scan builds -/

/-- R152: the queue after a list of handings holds what stood in it and what was handed. -/
theorem holds_foldl_hand (k : Slot) : ∀ (l : List (Slot × CommitClass)) (q : CommitQueue),
    (l.foldl (fun q h => q.hand (.slot h.1) h.2) q).holds (.slot k) =
      (q.holds (.slot k) || l.any (fun h => h.1 == k)) := by
  intro l
  induction l with
  | nil => simp
  | cons x l ih =>
    intro q
    rw [List.foldl_cons, List.any_cons, ih]
    by_cases e : x.1 = k
    · simp [e, CommitQueue.hand_holds]
    · rw [CommitQueue.hand_holds_other q x.2 (by simpa using Ne.symm e)]
      have apart : (x.1 == k) = false := by simpa using e
      rw [apart, Bool.false_or]

theorem nodup_foldl_hand : ∀ (l : List (Slot × CommitClass)) (q : CommitQueue), (q.urgent ++ q.normal).Nodup →
    ((l.foldl (fun q h => q.hand (.slot h.1) h.2) q).urgent ++
      (l.foldl (fun q h => q.hand (.slot h.1) h.2) q).normal).Nodup := by
  intro l
  induction l with
  | nil => exact fun _ h => h
  | cons x l ih => exact fun q h => ih _ (CommitQueue.hand_nodup _ _ _ h)

/-- R172: the scan's queue holds the slots that it handed. -/
theorem ScanWork.queue_holds (w : ScanWork) (k : Slot) :
    w.queue.holds (.slot k) = w.hands k := by
  have empty : ({ urgent := [], normal := [] } : CommitQueue).holds (.slot k) = false := rfl
  rw [ScanWork.queue, holds_foldl_hand, empty, Bool.false_or, ScanWork.hands]

theorem ScanWork.queue_nodup (w : ScanWork) : (w.queue.urgent ++ w.queue.normal).Nodup :=
  nodup_foldl_hand _ _ List.nodup_nil

/-! ### The completion of the scan -/

theorem State.enterScan_queue (s : State) : s.enterScan.queue = s.scanWork.queue := by
  obtain ⟨repairs, e⟩ : ∃ f, f = scanRepairs := ⟨_, rfl⟩
  rewrite [State.enterScan, State.scanWork, ← e]
  rfl

/-- R169: a slot loaded with DIRTY clear is that of its newest valid copy, or VACANT with both copies erased. -/
theorem loadSlot_clean {c : CopyPair Record} (h : (loadSlot c).dirty = false) :
    (∃ n, c.newestValid = some (n, (loadSlot c).fields)) ∨
      c.newestValid = none ∧ (loadSlot c).fields = Record.vacant ∧ c.bothErased = true := by
  unfold loadSlot at h ⊢
  split at h
  · rename_i n r e
    exact .inl ⟨n, by simp [e]⟩
  · rename_i e
    split at h
    · rename_i he; exact .inr ⟨e, by simp [he, SlotState.blank], he⟩
    · cases h

/-- R170–R172: a slot that the scan leaves with DIRTY clear is as it was loaded. -/
theorem State.scanWork_clean {s : State} {k : Slot} (h : ((s.scanWork.image)[k]).dirty = false) :
    s.scanWork.record k = (loadSlot (s.slotCopies[k])).fields ∧ (loadSlot (s.slotCopies[k])).dirty = false := by
  have scanned := s.scanWork_slot k
  rw [ScanWork.record]
  refine ⟨scanned.marked.resolve_right fun e => absurd (e.2.symm.trans h) Bool.noConfusion, ?_⟩
  by_contra hd
  exact absurd ((scanned.dirty (by simpa using hd)).symm.trans h) Bool.noConfusion

theorem State.enterScan_slotCopies (s : State) : s.enterScan.slotCopies = s.slotCopies := rfl

/-- R15, R169: a slot that the scan leaves with DIRTY clear is durable. -/
theorem State.enterScan_durable (s : State) (k : Slot) (h : (s.enterScan.slot k).dirty = false) :
    s.enterScan.Durable k := by
  rw [State.enterScan_slot] at h
  obtain ⟨loaded, clean⟩ := State.scanWork_clean h
  unfold State.Durable
  rw [State.enterScan_slotCopies, State.enterScan_record, loaded]
  rcases loadSlot_clean clean with ⟨n, e⟩ | ⟨e, vacant, erased⟩
  · rw [e]
  · rw [e]; exact ⟨vacant, erased⟩

/-- R168–R174: the completion of a scan establishes the commit law, whatever stood in the image before. -/
theorem State.CommitSound.enterScan (s : State) : s.enterScan.CommitSound where
  distinct := by rw [State.QueueDistinct, State.enterScan_queue]; exact ScanWork.queue_nodup _
  runs _ hf := nomatch hf
  idle hh := nomatch hh
  dirty _ k := by
    have waits : s.enterScan.awaitsCommit k = s.enterScan.queue.holds (.slot k) := Bool.or_false _
    rw [waits, State.enterScan_queue, ScanWork.queue_holds, State.enterScan_slot]
    exact s.scanWork_flagsHanded k
  durable _ k hd := s.enterScan_durable k hd
  newest _ k := by
    have newest : s.enterScan.newest = s.slotCopies.map (fun p => p.newestValid.map Prod.fst) := rfl
    rw [newest, State.enterScan_slotCopies]; simp
  cfgNewest _ := rfl
  flight _ hf := nomatch hf

theorem State.CommitSound.completeScan {s : State} (h : s.CommitSound) : s.completeScan.CommitSound := by
  unfold State.completeScan
  split <;> [exact (State.CommitSound.enterScan s).startFlight; exact h]

/-- Settles O57: every operation keeps the commit law, and the scan establishes it. -/
theorem stepKeepsTheCommitLaw : Obligations.StepKeepsTheCommitLaw :=
  fun s t h he => keeps_commitSound.step s t h (fun _ _ hu => hu.completeScan) he

end Sys2Proof.Machine

/-! ## The state after power-on (O60) -/

namespace Sys2Proof.Machine

/-- R1, log 1: after power-on every slot is VACANT. -/
theorem State.reset_record (k : Slot) : State.reset.record k = Record.vacant := State.record_blank rfl k

/-- After power-on the array is erased, so that its copies satisfy whatever is asked of valid ones. -/
theorem State.reset_copies (P : Record → Prop) (k : Slot) : (State.reset.slotCopies[k]).satisfies P := by
  have erased : State.reset.slotCopies[k] = { a := .erased, b := .erased } := Vector.getElem_replicate ..
  rw [erased]; exact ⟨trivial, trivial⟩

/-- R56, R64: where no slot is in a pocket the places are lawful. -/
theorem Lawful.of_none {P : Nat} {size : Slot → Size} {place : Slot → Option Nat} (h : ∀ k, place k = none) :
    Lawful P size place := by
  constructor <;> simp [h]

theorem State.reset_pocketNow (k : Slot) : State.reset.pocketNow k = none := by
  rw [State.pocketNow, State.reset_record]; rfl

theorem State.reset_tableSound : State.reset.TableSound :=
  .of_vacant State.reset_record rfl rfl rfl rfl (State.reset_copies _)

theorem State.reset_commitSound : State.reset.CommitSound :=
  .of_lost rfl ⟨OpState.noConfusion, OpState.noConfusion⟩ rfl rfl rfl

theorem Link.cleared_sound : Link.cleared.Sound := ⟨rfl, rfl, rfl, rfl⟩

/-- R10, R55, R56: with every slot VACANT, the array erased and no exchange open there is no place to judge. -/
theorem State.reset_placesSound : State.reset.PlacesSound where
  now := .of_none State.reset_pocketNow
  reverted := .of_none State.reset_pocketNow
  moved := .of_none State.reset_pocketNow
  numbered k := by rw [State.reset_record]; exact fun p hp => nomatch hp
  copies := State.reset_copies _
  ring _ hc := nomatch hc
  cfgCopies := ⟨trivial, trivial⟩
  flight _ hf := nomatch hf
  within k := by rw [State.reset_record]; exact ⟨Nat.zero_le _, fun p hp => nomatch hp⟩
  timer _ _ hx := nomatch hx

/-- Settles O60: the part holds nothing after power-on, and nothing is open or waits. -/
theorem resetStateIsSound : Obligations.ResetStateIsSound :=
  ⟨State.reset_tableSound, State.reset_commitSound, Link.cleared_sound, State.reset_placesSound⟩

end Sys2Proof.Machine

/-! ## Life accounting: CHARGE and DAMAGE (O14–O18) -/

namespace Sys2Proof.Machine

/-! ### What a claim leaves -/

/-- R3: a claim of the fields that a slot has changes no slot and no queue. -/
theorem State.Claimed.unchanged {s t : State} {k : Slot} {c : CommitClass} (h : s.Claimed t k (s.record k) c) :
    t.image = s.image ∧ t.queue = s.queue := by
  refine ⟨Vector.ext fun i hi => ?_, by rw [h.queue, if_pos rfl]⟩
  change t.slot ⟨i, hi⟩ = s.slot ⟨i, hi⟩
  by_cases hk : (⟨i, hi⟩ : Slot) = k
  · rw [hk, h.slot, if_pos rfl]
  · exact h.others _ hk

/-- R14: a claim sets ATTN of its slot at the entries that call for attention, and keeps it otherwise. -/
theorem State.Claimed.attn {s t : State} {k : Slot} {new : Record} {c : CommitClass} (h : s.Claimed t k new c) :
    (t.slot k).attn = ((s.slot k).attn || entersAttention (s.record k) new) := by
  rw [h.slot]
  split
  · next same => simp [same, entersAttention]
  · rfl

/-- R14: a claim that changes neither the condition nor the location sets no ATTN. -/
theorem State.Claimed.attn_kept {s t : State} {k : Slot} {new : Record} {c : CommitClass} (h : s.Claimed t k new c)
    (hc : new.condition = (s.record k).condition) (hl : new.location = (s.record k).location) (j : Slot) :
    (t.slot j).attn = (s.slot j).attn := by
  by_cases hj : j = k
  · subst hj; simp [h.attn, entersAttention, hc, hl]
  · rw [h.others j hj]

/-! ### The arithmetic of a charge -/

theorem chargedTotal_eq (charged n : Nat) :
    chargedTotal charged n = if charged + n ≤ 16777215 then charged + n else 16777215 := Nat.min_def

theorem Record.reportedLife_eq (r : Record) :
    r.reportedLife = if r.mode = .uncounted ∨ 2047 < r.remaining then 2047 else r.remaining := by
  simp only [Record.reportedLife, Config.valueMax]
  by_cases hm : r.mode = .uncounted
  · simp [hm]
  · simp only [hm, if_false, false_or]
    split <;> omega

/-- R24: a charge of 0 keeps every field. -/
theorem Record.afterCharge_zero (r : Record) : r.afterCharge 0 = r := if_pos rfl

/-- R20, R21: a charge of one unit or more to a tool that is not retired. -/
theorem Record.afterCharge_of_alive {r : Record} {n : Nat} (hn : 1 ≤ n) (hw : r.condition ≠ .worn)
    (hd : r.condition ≠ .damaged) :
    let left := if r.mode = .uncounted then r.remaining else r.remaining - n
    r.afterCharge n = { r with charged := chargedTotal r.charged n, remaining := left
                               condition := chargedCondition r.mode left r.warn } := by
  have alive : ¬ r.condition.retired = true := by simp [Condition.retired_iff, hw, hd]
  unfold Record.afterCharge
  rw [if_neg (Nat.ne_of_gt hn), if_neg alive]

/-- R23: a charge to a retired tool adds to the charged total alone. The range of R4 covers the charge of 0. -/
theorem Record.afterCharge_of_retired {r : Record} (n : Nat) (hr : r.condition.retired = true)
    (hm : r.charged ≤ 16777215) : r.afterCharge n = { r with charged := chargedTotal r.charged n } := by
  by_cases hn : n = 0
  · have kept : chargedTotal r.charged 0 = r.charged := Nat.min_eq_left hm
    rw [hn, Record.afterCharge_zero, kept]
  · rw [Record.afterCharge, if_neg hn, if_pos hr]

/-- R23: a charge does not take a retired tool out of its condition. -/
theorem Record.afterCharge_condition_of_retired {r : Record} (n : Nat) (hr : r.condition.retired = true) :
    (r.afterCharge n).condition = r.condition := by
  unfold Record.afterCharge
  rw [if_pos hr]
  split <;> rfl

/-- R22: the answer for a tool that is not DAMAGED. -/
theorem Record.chargeAnswer_of_ne_damaged {r : Record} (h : r.condition ≠ .damaged) :
    r.chargeAnswer = if r.condition = .worn then .chargedWorn 4
      else if r.condition = .nearEnd then .chargedNearEnd r.reportedLife else .charged r.reportedLife := by
  unfold Record.chargeAnswer
  cases hc : r.condition <;> simp_all

/-- R22, R23: the answer for a retired tool is its condition code. -/
theorem Record.chargeAnswer_of_retired {r : Record} (h : r.condition.retired = true) :
    r.chargeAnswer = .chargedWorn (if r.condition = .worn then 4 else 5) := by
  unfold Record.chargeAnswer
  rcases (Condition.retired_iff _).1 h with hc | hc <;> simp [hc]

theorem chargedCondition_ne_damaged (m : LifeMode) (left warn : Nat) : chargedCondition m left warn ≠ .damaged := by
  unfold chargedCondition
  (repeat' split) <;> simp

/-- R25: the class of a charge to a tool that was not WORN goes by the condition after it. -/
theorem chargeClass_of_ne_worn {before : Record} (h : before.condition ≠ .worn) (after : Record) :
    chargeClass before after = if after.condition = .worn then .urgent else .normal := by
  simp [chargeClass, h]

/-- R25: a charge that keeps the condition is of the normal class. -/
theorem chargeClass_of_condition_eq {before after : Record} (h : after.condition = before.condition) :
    chargeClass before after = .normal := by
  simp [chargeClass, h]

/-! ### What a CHARGE and a DAMAGE come to -/

/-- A claim and an answer in the step of the latch: the image and the queue as the claim says, the link as answered, and
nothing else. -/
theorem State.handed_claim_answer_claimed (s : State) (kind : BitVec 4) (operand : BitVec 12) (k : Slot) (new : Record)
    (c : CommitClass) (a : Answer) :
    let t := ((s.handed kind operand).claim k new c).answer a
    s.Claimed t k new c ∧ t.link = s.link.answered kind operand a ∧
      t = { s with image := t.image, queue := t.queue, link := t.link } := by
  rw [State.handed_claim_answer]
  exact ⟨State.claimed_of_claim _ _ _ _ _ rfl rfl, rfl, rfl⟩

/-- R19–R25: a CHARGE that meets a tool in the spindle is a claim of the fields after the charge, and its answer. -/
theorem exec_charge_claims {s : State} {o : BitVec 12} {k : Slot} {new : Record} {c : CommitClass} {a : Answer}
    (ha : s.RequestArrives) (hk : s.spindle = .holds k) (fields : (s.record k).afterCharge o.toNat = new)
    (cls : chargeClass (s.record k) new = c) (answer : new.chargeAnswer = a) :
    ∃ t, exec (.charge o .inStep) s = .next t ∧ s.Claimed t k new c ∧ t.link = s.link.answered 4 o a ∧
      t = { s with image := t.image, queue := t.queue, link := t.link } := by
  subst fields cls answer
  refine ⟨_, ?_, s.handed_claim_answer_claimed ..⟩
  rw [exec_charge_arrives s o ha, State.decideCharge_holds (s.handed 4 o) _ k hk]
  rfl

/-- R26: a DAMAGE that meets a tool in the spindle is an urgent claim of the condition, and its answer. -/
theorem exec_damage_claims {s : State} {k : Slot} (ha : s.RequestArrives) (hk : s.spindle = .holds k) :
    ∃ t, exec (.damage 0 .inStep) s = .next t ∧ s.Claimed t k { s.record k with condition := .damaged } .urgent ∧
      t.link = s.link.answered 5 0 (.damageNoted (s.record k).tool) ∧
      t = { s with image := t.image, queue := t.queue, link := t.link } := by
  refine ⟨_, ?_, s.handed_claim_answer_claimed ..⟩
  rw [exec_damage_arrives s ha, State.decideDamage_holds (s.handed 5 0) k hk]
  rfl

/-! ### The statements -/

/-- Settles O14: the fields after the charge are those of R20 and R21, and the class and the answer go by the condition
among them. -/
theorem chargeCountsLife : Obligations.ChargeCountsLife := by
  intro s o k ha hk ho hw hd r left new shown
  have fields : r.afterCharge o.toNat = new := by
    rw [Record.afterCharge_of_alive ho hw hd, chargedTotal_eq]; rfl
  have answer : new.chargeAnswer = if new.condition = .worn then .chargedWorn 4
      else if new.condition = .nearEnd then .chargedNearEnd shown else .charged shown := by
    rw [Record.chargeAnswer_of_ne_damaged (chargedCondition_ne_damaged r.mode left r.warn), Record.reportedLife_eq]
  exact exec_charge_claims ha hk fields (chargeClass_of_ne_worn hw new) answer

/-- Settles O16: a retired tool keeps its condition, so that the claim is of the normal class and enters nothing. -/
theorem chargeToARetiredTool : Obligations.ChargeToARetiredTool := by
  intro s o k ha hk hr r new
  have retired : r.condition.retired = true := (Condition.retired_iff _).2 hr
  have same := Record.afterCharge_condition_of_retired o.toNat retired
  have answer : (r.afterCharge o.toNat).chargeAnswer = .chargedWorn (if r.condition = .worn then 4 else 5) := by
    rw [Record.chargeAnswer_of_retired (by rw [same, retired]), same]
  obtain ⟨t, run, claimed, link, frame⟩ := exec_charge_claims ha hk rfl (chargeClass_of_condition_eq same) answer
  refine ⟨t, run, fun hm => ?_, link, frame⟩
  have fields : r.afterCharge o.toNat = new := by
    rw [Record.afterCharge_of_retired _ retired hm, chargedTotal_eq]
  rw [fields] at claimed
  refine ⟨claimed, claimed.attn_kept rfl rfl, fun full => ?_⟩
  have total : (if r.charged + o.toNat ≤ 16777215 then r.charged + o.toNat else 16777215) = r.charged := by
    split <;> omega
  have nothing : new = s.record k := congrArg (fun c => { r with charged := c }) total
  rw [nothing] at claimed
  exact claimed.unchanged

/-- Settles O18: the condition DAMAGED is one that calls for attention on its entry. -/
theorem damageMarksTheTool : Obligations.DamageMarksTheTool := by
  intro s k ha hk
  obtain ⟨t, run, claimed, link, frame⟩ := exec_damage_claims ha hk
  refine ⟨t, run, claimed, fun hd => ?_, fun hd => ?_, link, frame⟩
  · have enters : Condition.damaged ≠ (s.record k).condition := Ne.symm hd
    simp [claimed.attn, entersAttention, Condition.callsAttention, enters]
  · have nothing : { s.record k with condition := .damaged } = s.record k := by rw [← hd]
    rw [nothing] at claimed
    exact claimed.unchanged

/-- Settles O17: the refusals by the spindle state are answers alone. -/
theorem spindleRefusesChargeAndDamage : Obligations.SpindleRefusesChargeAndDamage := by
  intro s o a ha refused
  refine ⟨?_, ?_⟩
  · rw [exec_charge_arrives s o ha, State.decideCharge_refused (s.handed 4 o) _ a refused, State.handed_answer]
  · rintro rfl
    rw [exec_damage_arrives s ha, State.decideDamage_refused (s.handed 5 0) a refused, State.handed_answer]

/-- Settles O15: the fields after a charge of 0 are the fields before it; the other spindle states are those of O17. -/
theorem chargeOfZeroChangesNothing : Obligations.ChargeOfZeroChangesNothing := by
  intro s ha
  have refuses (a : Answer) := fun h => (spindleRefusesChargeAndDamage s 0 a ha h).1
  refine ⟨fun k hk hw hd => ?_, fun h => refuses _ (.inl ⟨h, rfl⟩), fun h => refuses _ (.inr (.inl ⟨h, rfl⟩)),
    fun h => refuses _ (.inr (.inr ⟨h, rfl⟩))⟩
  have answer := Record.chargeAnswer_of_ne_damaged hd
  rw [if_neg hw, Record.reportedLife_eq] at answer
  have fields : (s.record k).afterCharge (0 : BitVec 12).toNat = s.record k := Record.afterCharge_zero _
  obtain ⟨t, run, claimed, link, frame⟩ := exec_charge_claims ha hk fields rfl answer
  obtain ⟨image, queue⟩ := claimed.unchanged
  rw [run, frame, image, queue, link]

end Sys2Proof.Machine

/-! ## Selection: the Call Index, the choice, PROBE, CALL and LOCATE (O19–O22, O25, O26, O40) -/

namespace Sys2Proof.Machine

/-! ### The Call Index as a sorted list -/

/-- What the Call Index orders a slot by: its rank, then its slot number (R34, R37). -/
def State.indexKey (s : State) (k : Slot) : ℕ ×ₗ Slot := toLex ((s.record k).rank, k)

/-- Slot `j` stands no later than slot `k` in a list of the Call Index. -/
abbrev State.IndexLE (s : State) : Slot → Slot → Prop := s.indexKey ⁻¹'o (· ≤ ·)

theorem State.indexKey_lt_iff (s : State) (j k : Slot) : s.indexKey j < s.indexKey k ↔
    (s.record j).rank < (s.record k).rank ∨ ((s.record j).rank = (s.record k).rank ∧ j < k) :=
  Prod.Lex.toLex_lt_toLex

theorem State.indexKey_injective (s : State) : Function.Injective s.indexKey :=
  fun _ _ h => congrArg (fun x => (ofLex x).2) h

theorem State.indexBefore_iff (s : State) (j k : Slot) : s.indexBefore j k = true ↔ ¬ s.IndexLE k j := by
  simp [State.indexBefore, Order.Preimage, State.indexKey_lt_iff]

/-- R37: the insertion of the Call Index is the library's, under the order of its keys. -/
theorem State.indexInsert_eq (s : State) (k : Slot) (l : List Slot) :
    s.indexInsert k l = l.orderedInsert s.IndexLE k := by
  induction l with
  | nil => rfl
  | cons j l ih =>
    rw [State.indexInsert, List.orderedInsert_cons, ih]
    by_cases h : s.IndexLE k j
    · rw [if_pos h, if_neg (by simpa [State.indexBefore_iff] using h)]
    · rw [if_neg h, if_pos ((s.indexBefore_iff j k).2 h)]

theorem State.callIndex_eq_insertionSort (s : State) (n : Nat) : s.callIndex n =
    (slots.filter (fun k => (s.record k).occupied && decide ((s.record k).tool = n))).insertionSort s.IndexLE := by
  have same : s.indexInsert = List.orderedInsert s.IndexLE := by
    funext k l; exact s.indexInsert_eq k l
  rw [State.callIndex, same]
  rfl

/-- R34: the list of a tool number holds its non-vacant slots. -/
theorem State.mem_callIndex (s : State) (n : Nat) (k : Slot) :
    k ∈ s.callIndex n ↔ (s.record k).condition ≠ .vacant ∧ (s.record k).tool = n := by
  simp [State.callIndex_eq_insertionSort, List.mem_insertionSort, mem_slots, Record.occupied]

theorem State.callIndex_nodup (s : State) (n : Nat) : (s.callIndex n).Nodup := by
  rw [State.callIndex_eq_insertionSort, (List.perm_insertionSort _ _).nodup_iff]
  exact slots_nodup.filter _

/-- R36: the list stands in increasing order of rank and slot number. -/
theorem State.callIndex_pairwise (s : State) (n : Nat) :
    (s.callIndex n).Pairwise (fun j k => s.indexKey j < s.indexKey k) := by
  have sorted : (s.callIndex n).Pairwise s.IndexLE := by
    rw [State.callIndex_eq_insertionSort]
    exact List.pairwise_insertionSort _ _
  refine List.Pairwise.imp₂ (fun j k le ne => ?_) sorted (s.callIndex_nodup n)
  exact lt_of_le_of_ne le (s.indexKey_injective.ne ne)

/-- Settles O19: the Call Index is the insertion sort of the non-vacant slots with the tool number. -/
theorem callIndexLaw : Obligations.CallIndexLaw := fun s n =>
  ⟨s.mem_callIndex n, s.callIndex_nodup n,
    (s.callIndex_pairwise n).imp fun {j k} => (s.indexKey_lt_iff j k).1⟩

/-! ### The choice by its classes -/

theorem First.ne_nil {α : Type} {P : α → Prop} {l : List α} {a : α} (h : First P l a) : l ≠ [] := by
  obtain ⟨before, after, rfl, -⟩ := h; simp

/-- The first element that satisfies `Q` gives the value, when the others give none. -/
theorem findSome?_of_first {α β : Type} {f : α → Option β} {Q : α → Prop} (h : ∀ a, ¬ Q a → f a = none) {l : List α}
    {a : α} (hf : First Q l a) {b : β} (hb : f a = some b) : l.findSome? f = some b := by
  obtain ⟨before, after, rfl, -, none_before⟩ := hf
  have nothing : before.findSome? f = none := List.findSome?_eq_none_iff.2 fun x hx => h x (none_before x hx)
  simp [List.findSome?_append, nothing, hb]

/-- R5, R39: a retired tool is not alive. -/
theorem Record.not_alive_of_retired {r : Record} (h : r.condition = .worn ∨ r.condition = .damaged) : ¬ r.alive := by
  rcases h with h | h <;> simp [Record.alive, h]

section
variable {s : State} {n : Nat}

theorem State.find?_spindleChoice_eq_none (h : ∀ j ∈ s.callIndex n, ¬ (s.record j).spindleChoice) :
    (s.callIndex n).find? (fun k => (s.record k).isSpindleChoice) = none :=
  List.find?_eq_none.2 fun j hj => mt (Record.isSpindleChoice_iff _).1 (h j hj)

theorem State.findSome?_candidate_eq_none (h : ∀ j ∈ s.callIndex n, ¬ (s.record j).pocketCandidate) :
    (s.callIndex n).findSome? (fun k => (s.record k).candidatePocket.map (fun p => (k, p))) = none :=
  List.findSome?_eq_none_iff.2 fun j hj => by rw [(Record.candidatePocket_eq_none _).2 (h j hj)]; rfl

/-- R45: a tool number without sisters. -/
theorem State.choose_unknownTool (h : s.callIndex n = []) : s.choose n = .unknownTool := by
  simp [State.choose, h]

/-- R46: the first spindle choice. -/
theorem State.choose_inSpindle {k : Slot} (h : First (fun j => (s.record j).spindleChoice) (s.callIndex n) k) :
    s.choose n = .inSpindle (s.record k).rank := by
  simp [State.choose, h.ne_nil, find?_of_first _ _ (fun j => (s.record j).isSpindleChoice_iff) _ _ h]

/-- R47: without a spindle choice, the first pocket candidate. -/
theorem State.choose_candidate_of_first (hs : ∀ j ∈ s.callIndex n, ¬ (s.record j).spindleChoice) {k : Slot} {p : Nat}
    (h : First (fun j => (s.record j).pocketCandidate) (s.callIndex n) k) (hp : (s.record k).location = .pocket p) :
    s.choose n = .candidate k p := by
  have eligible : (s.record k).eligible := by obtain ⟨_, _, _, ⟨he, _⟩, _⟩ := h; exact he
  have pocket := (Record.candidatePocket_eq_some _ p).2 ⟨eligible, hp⟩
  have first : (s.callIndex n).findSome? (fun k => (s.record k).candidatePocket.map (fun p => (k, p))) = some (k, p) :=
    findSome?_of_first (fun j hj => by rw [(Record.candidatePocket_eq_none _).2 hj]; rfl) h (by rw [pocket]; rfl)
  simp [State.choose, h.ne_nil, State.find?_spindleChoice_eq_none hs, first]

/-- R47: without a selectable sister, the first waiting one. -/
theorem State.choose_unavailable (he : ∀ j ∈ s.callIndex n, ¬ (s.record j).eligible) {k : Slot}
    (h : First (fun j => (s.record j).waitingSister) (s.callIndex n) k) :
    s.choose n = .unavailable (s.record k).rank := by
  have spindle := State.find?_spindleChoice_eq_none fun j hj c => he j hj c.1
  have pocket := State.findSome?_candidate_eq_none fun j hj c => he j hj c.1
  simp [State.choose, h.ne_nil, spindle, pocket, find?_of_first _ _ (fun j => (s.record j).isWaiting_iff) _ _ h]

/-- R47: a group of retired sisters, none of which is selectable or waits. -/
theorem State.choose_exhausted (hn : s.callIndex n ≠ []) (hd : ∀ j ∈ s.callIndex n, ¬ (s.record j).alive) :
    s.choose n = .exhausted (s.callIndex n).length := by
  have spindle := State.find?_spindleChoice_eq_none fun j hj c => hd j hj c.1.1
  have pocket := State.findSome?_candidate_eq_none fun j hj c => hd j hj c.1.1
  have waiting : (s.callIndex n).find? (fun k => (s.record k).isWaiting) = none :=
    List.find?_eq_none.2 fun j hj w => hd j hj ((Record.isWaiting_iff _).1 w).1
  simp [State.choose, hn, spindle, pocket, waiting]

end

/-- Settles O20, class by class. -/
theorem choiceFollowsTheClasses : Obligations.ChoiceFollowsTheClasses := fun _ _ =>
  ⟨State.choose_unknownTool, fun _ => State.choose_inSpindle, fun hs _ _ => State.choose_candidate_of_first hs,
    fun he _ => State.choose_unavailable he,
    fun hn hr => State.choose_exhausted hn fun j hj => Record.not_alive_of_retired (hr j hj)⟩

/-! ### The handed-on state reads as the state before -/

theorem State.handed_choose (s : State) (kind : BitVec 4) (operand : BitVec 12) (n : Nat) :
    (s.handed kind operand).choose n = s.choose n :=
  State.choose_congr s (s.handed kind operand) rfl n

theorem State.handed_returnForCall (s : State) (kind : BitVec 4) (operand : BitVec 12) (k i : Slot) (p : Nat) :
    (s.handed kind operand).returnForCall k i p = s.returnForCall k i p :=
  State.returnForCall_congr s (s.handed kind operand) rfl rfl k i p

theorem State.handed_outgoingForCall (s : State) (kind : BitVec 4) (operand : BitVec 12) (i : Slot) (p : Nat) :
    (s.handed kind operand).outgoingForCall i p = s.outgoingForCall i p := by
  have spindle : (s.handed kind operand).spindle = s.spindle := rfl
  simp only [State.outgoingForCall, spindle, State.handed_returnForCall]

/-! ### PROBE -/

/-- R50, R51: the answer to a PROBE of a tool number, by the choice. -/
theorem State.probeTool_of_choice {s : State} {n : Nat} {a : Answer} (hs : s.spindle ≠ .unknown)
    (h : (s.choose n = .unknownTool ∧ a = .unknownTool n) ∨ (∃ r, s.choose n = .inSpindle r ∧ a = .selectable 0) ∨
      (∃ k p, s.choose n = .candidate k p ∧ a = .selectable p) ∨ (∃ m, s.choose n = .exhausted m ∧ a = .exhausted m) ∨
      (∃ r, s.choose n = .unavailable r ∧ a = .unavailable r)) : s.probeTool n = a := by
  rw [State.probeTool, if_neg hs]
  rcases h with ⟨hc, rfl⟩ | ⟨r, hc, rfl⟩ | ⟨k, p, hc, rfl⟩ | ⟨m, hc, rfl⟩ | ⟨r, hc, rfl⟩ <;> rw [hc]

theorem State.handed_probeTool (s : State) (kind : BitVec 4) (operand : BitVec 12) (n : Nat) :
    (s.handed kind operand).probeTool n = s.probeTool n := by
  have spindle : (s.handed kind operand).spindle = s.spindle := rfl
  simp only [State.probeTool, spindle, State.handed_choose]

/-- R50: a PROBE of a tool number is its answer and nothing else. -/
theorem exec_probe_tool {s : State} {o : BitVec 12} (ha : s.RequestArrives) (h1 : 1 ≤ o.toNat) (h2 : o.toNat ≤ 2047) :
    exec (.probe o .inStep) s = .next { s with link := s.link.answered 7 o (s.probeTool o.toNat) } := by
  rw [exec_probe_arrives s o ha h2, State.decideProbe, if_neg (Nat.ne_of_gt h1), State.handed_probeTool,
    State.handed_answer]

/-- R52: PROBE 0 is the report of the spindle and nothing else. -/
theorem exec_probe_spindle {s : State} (ha : s.RequestArrives) :
    exec (.probe 0 .inStep) s = .next { s with link := s.link.answered 7 0 s.probeSpindle } := by
  rw [exec_probe_arrives s 0 ha (by decide)]
  rfl

/-- R98, R107: outside RUNNING the link answers a PROBE itself. -/
theorem exec_probe_not_running {s : State} {o : BitVec 12} {a : Answer} (hr : s.resetLow = false)
    (hm : s.link.rqMark = true) (h : s.opState.linkAnswer = some a) :
    exec (.probe o .inStep) s = .next { s with link := s.link.answered 7 o a } := by
  have on : s.opState ≠ .off := by rintro e; rw [e] at h; cases h
  simp only [exec, execProbe, kindProbe]
  rw [State.latchRequest_not_running s _ _ _ _ a hr hm on h]

/-- Settles O21: the answer of R50 goes by the choice that a CALL makes. -/
theorem probeAnswersWhatACallWouldChoose : Obligations.ProbeAnswersWhatACallWouldChoose := by
  intro s o a ha h1 h2 h
  have answer : s.probeTool o.toNat = a := by
    rcases h with ⟨hs, rfl⟩ | ⟨hs, choice⟩
    · rw [State.probeTool, if_pos hs]
    · exact State.probeTool_of_choice hs choice
  rw [exec_probe_tool ha h1 h2, answer]

/-- Settles O22: PROBE 0 by the spindle state in RUNNING, by the link outside it. -/
theorem probeOfTheSpindle : Obligations.ProbeOfTheSpindle := by
  intro s
  refine ⟨fun ha => ?_, fun hr hm => ?_⟩
  · have reports {a : Answer} (h : s.probeSpindle = a) :
        exec (.probe 0 .inStep) s = .next { s with link := s.link.answered 7 0 a } := by
      rw [exec_probe_spindle ha, h]
    refine ⟨fun k hk => reports ?_, fun hk => reports ?_, fun hk => reports ?_, fun hk => reports ?_⟩ <;>
      rw [State.probeSpindle, hk]
  · refine ⟨fun h => exec_probe_not_running hr hm ?_, fun h => exec_probe_not_running hr hm ?_,
      fun h => exec_probe_not_running hr hm ?_⟩ <;> rw [h] <;> rfl

/-! ### CALL -/

section
variable {s : State} {n : Nat}

/-- R43: step 3 of CALL. -/
theorem State.decideCall_of_open {a : Answer} (h : s.exchange.refusal = some a) : s.decideCall n = s.answer a := by
  simp only [State.decideCall, h]

/-- R44: step 4 of CALL. -/
theorem State.decideCall_of_unknown (hx : s.exchange = .idle) (hs : s.spindle = .unknown) :
    s.decideCall n = s.answer .spindleUnknown := by
  simp only [State.decideCall, hx, Exchange.refusal, hs, if_true]

/-- R45–R47: steps 5 to 7 of CALL, when the choice is no candidate. -/
theorem State.decideCall_of_choice {a : Answer} (hx : s.exchange = .idle) (hs : s.spindle ≠ .unknown)
    (h : (s.choose n = .unknownTool ∧ a = .unknownTool n) ∨ (∃ r, s.choose n = .inSpindle r ∧ a = .inSpindle r) ∨
      (∃ m, s.choose n = .exhausted m ∧ a = .exhausted m) ∨ (∃ r, s.choose n = .unavailable r ∧ a = .unavailable r)) :
    s.decideCall n = s.answer a := by
  rcases h with ⟨hc, rfl⟩ | ⟨r, hc, rfl⟩ | ⟨m, hc, rfl⟩ | ⟨r, hc, rfl⟩ <;>
    simp only [State.decideCall, hx, Exchange.refusal, hs, if_false, hc]

/-- R48: step 8 of CALL, when no return pocket is found. -/
theorem State.decideCall_of_noRoom {i : Slot} {p first : Nat} (hx : s.exchange = .idle) (hs : s.spindle ≠ .unknown)
    (hc : s.choose n = .candidate i p) (ho : s.outgoingForCall i p = .error first) :
    s.decideCall n = s.answer (.noRoom first) := by
  simp only [State.decideCall, hx, Exchange.refusal, hs, if_false, hc, ho]

/-- R78: step 9 of CALL. -/
theorem State.decideCall_opens {i : Slot} {p : Nat} {out : Option (Slot × Nat)} (hx : s.exchange = .idle)
    (hs : s.spindle ≠ .unknown) (hc : s.choose n = .candidate i p) (ho : s.outgoingForCall i p = .ok out) :
    s.decideCall n = s.openExchange (.call i p out) := by
  simp only [State.decideCall, hx, Exchange.refusal, hs, if_false, hc, ho]

/-- R61: the two ends of a CALL are two slots, the one in its pocket and the other in the spindle. -/
theorem State.SpindleSound.call_distinct {i : Slot} {p : Nat} {out : Option (Slot × Nat)} (h : s.SpindleSound)
    (hi : (s.record i).location = .pocket p) (ho : ∀ k r, out = some (k, r) → s.spindle = .holds k) :
    (Movement.call i p out).distinct := by
  cases out with
  | none => simp [Movement.distinct, Movement.named, Movement.incoming, Movement.outgoing]
  | some e =>
    have apart : i ≠ e.1 := by
      intro same
      have inSpindle := (h e.1).2 (ho e.1 e.2 rfl)
      rw [← same, hi] at inSpindle; cases inSpindle
    simpa [Movement.distinct, Movement.named, Movement.incoming, Movement.outgoing] using apart

end

/-- Settles O25: the steps 3 to 8 of CALL, each an answer alone. -/
theorem callRefusals : Obligations.CallRefusals := by
  intro s o a ha h1 h2 h
  have decision : (s.handed 1 o).decideCall o.toNat = (s.handed 1 o).answer a := by
    rcases h with ⟨x, hx, rfl⟩ | ⟨x, timer, hx, rfl⟩ | ⟨x, cause, hx, rfl⟩ | ⟨hx, ⟨hs, rfl⟩ | ⟨hs, choice⟩⟩
    · exact State.decideCall_of_open (congrArg Exchange.refusal hx)
    · exact State.decideCall_of_open (congrArg Exchange.refusal hx)
    · exact State.decideCall_of_open (congrArg Exchange.refusal hx)
    · exact State.decideCall_of_unknown hx hs
    · rw [← s.handed_choose 1 o] at choice
      rcases choice with hc | hc | hc | hc | ⟨i, p, k, first, hc, hk, hn, rfl⟩
      · exact State.decideCall_of_choice hx hs (.inl hc)
      · exact State.decideCall_of_choice hx hs (.inr (.inl hc))
      · exact State.decideCall_of_choice hx hs (.inr (.inr (.inl hc)))
      · exact State.decideCall_of_choice hx hs (.inr (.inr (.inr hc)))
      · refine State.decideCall_of_noRoom hx hs hc ?_
        rw [State.handed_outgoingForCall]
        simp only [State.outgoingForCall, hk, hn]
  rw [exec_call_arrives s o ha h1 h2, decision, State.handed_answer]

/-- Settles O26: the open of R78, whose two ends are not in transit and are two slots, since the incoming tool stands in
a pocket and the outgoing one in the spindle. -/
theorem callOpensAnExchange : Obligations.CallOpensAnExchange := by
  intro s o i p out ha h1 h2 sound hx hc ends
  have stands := State.choose_candidate hc
  have known : s.spindle ≠ .unknown := by
    rcases ends with ⟨hs, -⟩ | ⟨k, r, hs, -⟩ <;> rw [hs] <;> simp
  have step8 : s.outgoingForCall i p = .ok out := by
    rcases ends with ⟨hs, rfl⟩ | ⟨k, r, hs, hr, rfl⟩
    · simp only [State.outgoingForCall, hs]
    · simp only [State.outgoingForCall, hs, hr]
  have spindle (k r) (e : out = some (k, r)) : s.spindle = .holds k := (State.outgoingForCall_ok step8 k).2 ⟨r, e⟩
  have decision : (s.handed 1 o).decideCall o.toNat = (s.handed 1 o).openExchange (.call i p out) :=
    State.decideCall_opens hx known (by rw [State.handed_choose, hc]) (by rw [State.handed_outgoingForCall, step8])
  have pocket : (Movement.call i p out).returnPocket = (out.map Prod.snd).getD 0 := by cases out <;> rfl
  obtain ⟨t, opened, rewritten, held, exchange, tag, awaited, link, frame⟩ :=
    s.openExchange_spec 1 o (.call i p out) (sound.call_distinct stands spindle)
      (fun k q e => by cases e; rw [stands]; simp)
      (fun k q e => by rw [(sound k).2 (spindle k q e)]; simp)
  rw [pocket] at awaited
  refine ⟨t, ?_, rewritten, held, exchange, tag, awaited, link, frame⟩
  rw [exec_call_arrives s o ha h1 h2, decision, opened]

/-! ### LOCATE -/

/-- R53, R54: LOCATE in an operating state that serves it. -/
theorem exec_locate_taken {s : State} (h : s.CommandTaken) : exec .locate s = .next (s.withCommand 6).takeLocate := by
  simp only [exec, execLocate]
  rw [State.issue_taken s h]

/-- Settles O40: the body of LOCATE, by its operands and then by the position of the index. -/
theorem locateReadsTheIndex : Obligations.LocateReadsTheIndex := by
  intro s h n list done inRange
  have index : (s.withCommand 6).callIndex s.host.argTool.toNat = list := State.callIndex_congr s (s.withCommand 6) rfl _
  have fits : inRange ↔ 1 ≤ s.host.argTool.toNat ∧ s.host.argTool.toNat ≤ 2047 ∧ 1 ≤ n ∧ n ≤ 8 := and_assoc
  rw [exec_locate_taken h]
  unfold State.takeLocate
  dsimp only
  rw [index]
  refine ⟨fun hr => ?_, fun hr short => ?_, fun hr k hk => ?_⟩
  · rw [if_neg (mt fits.2 hr)]; rfl
  · have past : list[n - 1]? = none := List.getElem?_eq_none (by omega)
    rw [if_pos (fits.1 hr), past]; rfl
  · rw [if_pos (fits.1 hr), hk]; rfl

end Sys2Proof.Machine

/-! ## The magazine ring (O23, O24) -/

namespace Sys2Proof.Machine

/-! ### Placement validity -/

/-- R64: a tool of the size in pocket `p` of a ring of `P` pockets and the tool `r` do not meet: `r` does not name the
pocket, nor a ring neighbour of it when either tool is LARGE. -/
def Record.ClearOf (r : Record) (P : Nat) (size : Size) (p : Nat) : Prop :=
  r.location.pocketPart ≠ some p ∧
    (size = .large ∨ r.size = .large →
      r.location.pocketPart ≠ some (ringBefore P p) ∧ r.location.pocketPart ≠ some (ringAfter P p))

theorem State.markedIn_eq_false (s : State) (gone : List Slot) (p : Nat) : s.markedIn gone p = false ↔
    ∀ k, k ∉ gone → (s.record k).condition ≠ .vacant → (s.record k).location.pocketPart ≠ some p := by
  rw [← Bool.not_eq_true, State.markedIn_iff]
  push Not; rfl

theorem State.largeAt_eq_false (s : State) (gone : List Slot) (p : Nat) : s.largeAt gone p = false ↔
    ∀ k, k ∉ gone → (s.record k).condition ≠ .vacant → (s.record k).size = .large →
      (s.record k).location.pocketPart ≠ some p := by
  rw [← Bool.not_eq_true, State.largeAt_iff]
  push Not; rfl

/-- R59: a pocket without an occupant is BLOCKED when a LARGE tool names a ring neighbour. -/
theorem State.blockedIn_of_not_occupied {s : State} {gone : List Slot} {p : Nat} (h : s.occupiedIn gone p = false) :
    s.blockedIn gone p =
      (s.largeAt gone (ringBefore s.pockets p) || s.largeAt gone (ringAfter s.pockets p)) := by
  rw [State.blockedIn, h]; rfl

/-- R64: the tests of a placement, when the pocket is not marked. -/
theorem State.placeable_eq_true (s : State) (gone : List Slot) (size : Size) (p : Nat) :
    s.placeable gone size p = true ↔ 1 ≤ p ∧ p ≤ s.pockets ∧ s.markedIn gone p = false ∧
      (s.largeAt gone (ringBefore s.pockets p) = false ∧ s.largeAt gone (ringAfter s.pockets p) = false) ∧
      (size = .large → s.markedIn gone (ringBefore s.pockets p) = false ∧
        s.markedIn gone (ringAfter s.pockets p) = false) := by
  by_cases hm : s.markedIn gone p = false
  · have free := State.blockedIn_of_not_occupied (s.occupiedIn_of_not_marked gone p hm)
    cases size <;> simp [State.placeable, hm, free, and_assoc]
  · simp [State.placeable, hm]

/-- R64: the placement test as one condition on each tool of the view. -/
theorem State.placeable_iff (s : State) (gone : List Slot) (size : Size) (p : Nat) :
    s.placeable gone size p = true ↔ 1 ≤ p ∧ p ≤ s.pockets ∧
      ∀ j, j ∉ gone → (s.record j).condition ≠ .vacant → (s.record j).ClearOf s.pockets size p := by
  rw [State.placeable_eq_true]
  simp only [State.markedIn_eq_false, State.largeAt_eq_false]
  refine and_congr_right fun _ => and_congr_right fun _ => ⟨?_, fun h => ⟨?_, ⟨?_, ?_⟩, fun hs => ⟨?_, ?_⟩⟩⟩
  · rintro ⟨free, ⟨before, after⟩, room⟩ j hj hv
    refine ⟨free j hj hv, ?_⟩
    rintro (hs | hl)
    · exact ⟨(room hs).1 j hj hv, (room hs).2 j hj hv⟩
    · exact ⟨before j hj hv hl, after j hj hv hl⟩
  · exact fun j hj hv => (h j hj hv).1
  · exact fun j hj hv hl => ((h j hj hv).2 (.inr hl)).1
  · exact fun j hj hv hl => ((h j hj hv).2 (.inr hl)).2
  · exact fun j hj hv => ((h j hj hv).2 (.inl hs)).1
  · exact fun j hj hv => ((h j hj hv).2 (.inl hs)).2

/-! ### The pocket report -/

theorem Location.standsIn_iff (l : Location) (p : Nat) : l.standsIn p = true ↔ l = .pocket p := by
  simp [Location.standsIn]

theorem Location.reserves_iff (l : Location) (p : Nat) :
    l.reserves p = true ↔ l = .transitIn p ∨ l = .transitBack p := by
  simp [Location.reserves]

theorem Location.doubts_iff (l : Location) (p : Nat) : l.doubts p = true ↔ l = .unknown (some p) := by
  simp [Location.doubts]

/-- The pocket part of a location, by its three kinds of R56–R58. -/
theorem Location.pocketPart_iff (l : Location) (p : Nat) : l.pocketPart = some p ↔
    l = .pocket p ∨ (l = .transitIn p ∨ l = .transitBack p) ∨ l = .unknown (some p) := by
  cases l <;> simp [Location.pocketPart]

/-- R56: in the magazine as it stands a pocket is occupied when a tool stands in it. -/
theorem State.occupiedIn_iff (s : State) (p : Nat) : s.occupiedIn [] p = true ↔ ∃ k, s.StandsIn k p := by
  simp [State.occupiedIn, State.anySlot_iff, Location.standsIn_iff, State.StandsIn]

/-- R57: a pocket is reserved when a tool in transit is to be received in it. -/
theorem State.reservedIn_iff (s : State) (p : Nat) : s.reservedIn [] p = true ↔ ∃ k, s.ReservesPocket k p := by
  simp [State.reservedIn, State.anySlot_iff, Location.reserves_iff, State.ReservesPocket]

/-- R58: a pocket is in doubt when a tool of UNKNOWN location is marked for it. -/
theorem State.unknownIn_iff (s : State) (p : Nat) : s.unknownIn [] p = true ↔ ∃ k, s.DoubtsPocket k p := by
  simp [State.unknownIn, State.anySlot_iff, Location.doubts_iff, State.DoubtsPocket]

/-- R59: a LARGE tool names a pocket when it stands there, is to be received there, or is marked there. -/
theorem State.largeAt_iff_names (s : State) (p : Nat) : s.largeAt [] p = true ↔
    ∃ k, (s.record k).size = .large ∧ (s.StandsIn k p ∨ s.ReservesPocket k p ∨ s.DoubtsPocket k p) := by
  rw [State.largeAt_iff]
  refine exists_congr fun k => ?_
  rw [Location.pocketPart_iff, State.StandsIn, State.ReservesPocket, State.DoubtsPocket]
  simp only [List.not_mem_nil, not_false_eq_true, true_and]
  tauto

/-- R59: a pocket of the ring without an occupant is BLOCKED when a LARGE tool is beside it. -/
theorem State.blockedIn_iff {s : State} {p : Nat} (h1 : 1 ≤ p) (h2 : p ≤ s.pockets) (ho : ¬ ∃ k, s.StandsIn k p) :
    s.blockedIn [] p = true ↔ s.LargeBeside p := by
  obtain ⟨before, after⟩ := ring_neighbours s.pockets p h1 h2
  rw [State.blockedIn_of_not_occupied (by rwa [← Bool.not_eq_true, State.occupiedIn_iff]), Bool.or_eq_true,
    State.largeAt_iff_names, State.largeAt_iff_names, before, after]
  constructor
  · rintro (⟨k, hl, hk⟩ | ⟨k, hl, hk⟩)
    · exact ⟨k, _, hl, .inl rfl, hk⟩
    · exact ⟨k, _, hl, .inr rfl, hk⟩
  · rintro ⟨k, q, hl, rfl | rfl, hk⟩
    · exact .inl ⟨k, hl, hk⟩
    · exact .inr ⟨k, hl, hk⟩

/-- The test by which the occupant of a pocket is found. -/
theorem State.occupant_test (s : State) (k : Slot) (p : Nat) :
    ((s.record k).occupied && (s.record k).location.standsIn p) = true ↔ s.StandsIn k p := by
  rw [Bool.and_eq_true, Record.occupied_iff, Location.standsIn_iff, State.StandsIn]

/-- R56: the occupant of a pocket is the one tool that stands in it. -/
theorem State.occupant_eq_some {s : State} {k : Slot} {p : Nat} (hk : s.StandsIn k p)
    (one : ∀ j, s.StandsIn j p → j = k) : s.occupant p = some k := by
  refine (slots_find?_eq_some _ k).2 ⟨(s.occupant_test k p).2 hk, fun j hj => ?_⟩
  rw [← Bool.not_eq_true, s.occupant_test]
  exact fun h => hj.ne (one j h)

theorem State.occupant_eq_none {s : State} {p : Nat} (h : ¬ ∃ k, s.StandsIn k p) : s.occupant p = none :=
  List.find?_eq_none.2 fun k _ hk => h ⟨k, (s.occupant_test k p).1 hk⟩

/-- R60: the report of a pocket without an occupant. -/
theorem State.pocketReport_of_free {s : State} {p : Nat} (h1 : 1 ≤ p) (h2 : p ≤ s.pockets)
    (ho : ¬ ∃ k, s.StandsIn k p) : s.pocketReport p =
      if s.reservedIn [] p then (4, 255) else if s.unknownIn [] p then (3, 255)
      else if s.blockedIn [] p then (2, 255) else (1, 255) := by
  rw [State.pocketReport, if_neg (by omega), State.occupant_eq_none ho]

/-- Settles O23: the placement test tool by tool, the report by its first case, and the two positions that read it. -/
theorem placementValidity : Obligations.PlacementValidity := by
  refine ⟨fun s gone size p => ?_, fun s p => ⟨fun h => ?_, fun h1 h2 => ⟨fun k hk one => ?_, fun ho => ?_⟩⟩,
    fun s on => ?_⟩
  · rw [State.placeable_iff]
    refine and_congr_right fun h1 => and_congr_right fun h2 => ?_
    obtain ⟨before, after⟩ := ring_neighbours s.pockets p h1 h2
    rw [← before, ← after]; rfl
  · exact if_pos h
  · rw [State.pocketReport, if_neg (by omega), State.occupant_eq_some hk one]
  · rw [State.pocketReport_of_free h1 h2 ho]
    simp only [← State.reservedIn_iff, ← State.unknownIn_iff, ← State.blockedIn_iff h1 h2 ho]
    refine ⟨fun hr => if_pos hr, fun hr => ?_⟩
    rw [if_neg hr]
    refine ⟨fun hu => if_pos hu, fun hu => ?_⟩
    rw [if_neg hu]
    exact ⟨fun hb => if_pos hb, fun hb => if_neg hb⟩
  · simp only [State.readWindow, if_neg on]
    exact ⟨rfl, rfl⟩

/-! ### The return-pocket choice -/

section
variable {s : State} {c : Configuration}

theorem State.pockets_of_config (h : s.config = some c) : s.pockets = c.pockets := by simp [State.pockets, h]

theorem State.policy_of_config (h : s.config = some c) : s.policy = c.policy := by simp [State.policy, h]

/-- R66, R67: the return pocket of a CALL under FIXED. -/
theorem State.returnForCall_fixed (h : s.policy = .fixed) (k i : Slot) (src : Nat) : s.returnForCall k i src =
    if (s.record k).home ≠ 0 ∧ s.placeable [k, i] (s.record k).size (s.record k).home then .chosen (s.record k).home
    else .noRoom (s.record k).home := by
  rw [State.returnForCall, h]

/-- R68: the return pocket of a PUTAWAY under FIXED. -/
theorem State.returnForPutaway_fixed (h : s.policy = .fixed) (k : Slot) : s.returnForPutaway k =
    if (s.record k).home ≠ 0 ∧ s.placeable [k] (s.record k).size (s.record k).home then .chosen (s.record k).home
    else .noRoom (s.record k).home := by
  rw [State.returnForPutaway, h]

/-- R67: under SWAP a CALL examines the ring from the source pocket. -/
theorem State.returnForCall_swap (h : s.policy = .swap) (k i : Slot) (src : Nat) :
    (∀ p, s.firstPlaceable [k, i] (s.record k).size (ringFrom s.pockets src) = some p →
      s.returnForCall k i src = .chosen p) ∧
    (s.firstPlaceable [k, i] (s.record k).size (ringFrom s.pockets src) = none →
      s.returnForCall k i src = .noRoom src) := by
  constructor
  · intro p hp; simp only [State.returnForCall, h, hp]
  · intro hn; simp only [State.returnForCall, h, hn]

/-- R68: the pocket from which a PUTAWAY under SWAP examines the ring: the home pocket, or pocket 1 without one. -/
def Record.putawayStart (r : Record) : Nat := if r.home = 0 then 1 else r.home

theorem Record.putawayStart_eq (r : Record) : r.putawayStart = max 1 r.home := by
  unfold Record.putawayStart; split <;> omega

/-- R68: under SWAP a PUTAWAY examines the ring from there. -/
theorem State.returnForPutaway_swap (h : s.policy = .swap) (k : Slot) :
    (∀ p, s.firstPlaceable [k] (s.record k).size (ringFrom s.pockets (s.record k).putawayStart) = some p →
      s.returnForPutaway k = .chosen p) ∧
    (s.firstPlaceable [k] (s.record k).size (ringFrom s.pockets (s.record k).putawayStart) = none →
      s.returnForPutaway k = .noRoom (s.record k).putawayStart) := by
  rw [Record.putawayStart_eq]
  constructor
  · intro p hp; simp only [State.returnForPutaway, h, hp]
  · intro hn; simp only [State.returnForPutaway, h, hn]

end

/-- Settles O24: FIXED tests the home pocket alone; SWAP takes the nearest valid pocket round the ring. -/
theorem returnPocketChoice : Obligations.ReturnPocketChoice := by
  intro s c k i src hc r
  have pockets := State.pockets_of_config hc
  rw [← pockets, ← State.policy_of_config hc]
  refine ⟨fun fixed => ?_, fun swap h1 h2 home hP => ⟨fun p hp least => ?_, fun none => ?_, ?_⟩⟩
  · have refused {b : Bool} (h : r.home = 0 ∨ b = false) : ¬ (r.home ≠ 0 ∧ b = true) := by
      rintro ⟨h0, hb⟩
      rcases h with h | h
      · exact h0 h
      · rw [h] at hb; cases hb
    rw [State.returnForCall_fixed fixed, State.returnForPutaway_fixed fixed]
    exact ⟨fun h0 hp => if_pos ⟨h0, hp⟩, fun h => if_neg (refused h), fun h0 hp => if_pos ⟨h0, hp⟩,
      fun h => if_neg (refused h)⟩
  · exact (State.returnForCall_swap swap k i src).1 p (s.firstPlaceable_eq_some _ _ src p h1 h2 hp least)
  · exact (State.returnForCall_swap swap k i src).2 (s.firstPlaceable_eq_none _ _ _ none)
  · have start : 1 ≤ r.putawayStart ∧ r.putawayStart ≤ s.pockets := by
      rw [Record.putawayStart_eq]; omega
    exact ⟨fun p hp least => (State.returnForPutaway_swap swap k).1 p
        (s.firstPlaceable_eq_some _ _ _ p start.1 start.2 hp least),
      fun none => (State.returnForPutaway_swap swap k).2 (s.firstPlaceable_eq_none _ _ _ none)⟩

end Sys2Proof.Machine

/-! ## DECLARE_SPINDLE_EMPTY and CONFIG_STORE (O43, O46) -/

namespace Sys2Proof.Machine

/-! ### DECLARE_SPINDLE_EMPTY -/

theorem Exchange.isSuspect_eq_false (e : Exchange) : e.isSuspect = false ↔ e.suspect? = none := by
  cases e <;> simp [Exchange.isSuspect, Exchange.suspect?]

theorem State.spindleSlot_eq_none (s : State) : s.spindleSlot = none ↔
    ∀ k, (s.record k).condition ≠ .vacant → (s.record k).location ≠ .spindle := by
  simp [State.spindleSlot, mem_slots, Record.occupied_iff]

/-- Settles O43: the test of R63 over the state, by its two outcomes. -/
theorem declareSpindleEmpty : Obligations.DeclareSpindleEmpty := by
  intro s h running allowed
  have taken : exec .declareSpindleEmpty s = .next (s.withCommand 9).takeDeclareSpindleEmpty := by
    simp only [exec, execDeclareSpindleEmpty]
    rw [State.issue_whenRunning s h running]
  have test : allowed ↔ s.spindle = .unknown ∧ !s.exchange.isSuspect ∧ s.spindleSlot = none := by
    rw [State.spindleSlot_eq_none, Bool.not_eq_true', Exchange.isSuspect_eq_false]
  rw [taken]
  exact ⟨fun ha => congrArg _ (if_pos (test.1 ha)), fun ha => congrArg _ (if_neg (mt test.2 ha))⟩

/-! ### CONFIG_STORE -/

/-- R72: values that differ from those applied are applied, and CFG is handed urgent. -/
theorem State.applyConfig_of_ne (s : State) {c : Configuration} (h : s.config ≠ some c) :
    s.applyConfig c = { s with config := some c, queue := s.queue.hand .cfg .urgent } := if_neg h

/-- R72: the values that are applied already change nothing. -/
theorem State.applyConfig_of_eq (s : State) {c : Configuration} (h : s.config = some c) : s.applyConfig c = s :=
  if_pos h

theorem State.takeConfigStore_of_none {s : State} (h : s.host.staged = none) :
    s.takeConfigStore = s.complete .range := by
  rw [State.takeConfigStore, h]

/-- R71: the cases 3 to 6, by the first that applies. -/
theorem State.takeConfigStore_of_some {s : State} {c : Configuration} (h : s.host.staged = some c) :
    s.takeConfigStore =
      if s.beyond c.pockets || s.crowded c.pockets then s.complete .pocketConflict
      else if s.exchange ≠ .idle then s.complete .locked else (s.applyConfig c).complete .ok := by
  rw [State.takeConfigStore, h]

/-- Settles O46: the table of R71 case by case, and the two outcomes of R72. -/
theorem configStoreAppliesTheStaging : Obligations.ConfigStoreAppliesTheStaging := by
  intro s h running
  have taken : exec .configStore s = .next (s.withCommand 12).takeConfigStore := by
    simp only [exec, execConfigStore]
    rw [State.issue_whenRunning s h running]
  rw [taken]
  refine ⟨fun none => ?_, fun c hc => ?_⟩
  · have unstaged : s.host.staged = .none :=
      Option.eq_none_iff_forall_ne_some.2 fun c hc => none c ((HostPort.staged_iff _ c).1 hc)
    exact congrArg _ (State.takeConfigStore_of_none unstaged)
  have staged : (s.withCommand 12).host.staged = some c := (HostPort.staged_iff s.host c).2 hc
  have conflict : ((s.withCommand 12).beyond c.pockets || (s.withCommand 12).crowded c.pockets) = true ↔
      s.BeyondRing c.pockets ∨ s.Crowded c.pockets := by
    rw [Bool.or_eq_true, State.beyond_iff, State.crowded_iff]; rfl
  rw [State.takeConfigStore_of_some staged]
  refine ⟨fun hb => ?_, fun hb hw => ?_⟩
  · rw [if_pos (conflict.2 hb)]; rfl
  rw [if_neg (mt conflict.1 (by tauto))]
  refine ⟨fun hx => ?_, fun hx he => ?_, fun hx he => ?_⟩
  · rw [if_pos hx]; rfl
  · rw [if_neg (not_not.2 hx), (s.withCommand 12).applyConfig_of_eq he]; rfl
  · rw [if_neg (not_not.2 hx), (s.withCommand 12).applyConfig_of_ne he]; rfl

end Sys2Proof.Machine

/-! ## The places: the pockets of the magazine at every end of an exchange (O59) -/

namespace Sys2Proof.Machine

/-! ### Lawful places -/

/-- R55: of two pockets of the ring the one comes before the other exactly when the other comes after it. -/
theorem ringBefore_eq_iff {P p q : Nat} (hp : 1 ≤ p ∧ p ≤ P) (hq : 1 ≤ q ∧ q ≤ P) :
    ringBefore P p = q ↔ ringAfter P q = p := by
  unfold ringBefore ringAfter
  split <;> split <;> omega

/-- R55: in a ring of two pockets or more no pocket is its own neighbour. -/
theorem ring_neighbours_ne {P p : Nat} (hP : 2 ≤ P) : ringBefore P p ≠ p ∧ ringAfter P p ≠ p := by
  unfold ringBefore ringAfter
  constructor
  · split <;> omega
  · split <;> omega

section
variable {P : Nat} {size size' : Slot → Size} {place place' : Slot → Option Nat}

/-- R56, R64: places are lawful when no two slots share a pocket, and no other slot is beside a LARGE one. -/
theorem Lawful.of_apart (hP : 2 ≤ P) (one : ∀ j k p, place j = some p → place k = some p → j = k)
    (ring : ∀ k p, place k = some p → 1 ≤ p ∧ p ≤ P)
    (apart : ∀ j k p q, k ≠ j → place j = some p → size j = .large → place k = some q →
      q ≠ ringBefore P p ∧ q ≠ ringAfter P p) : Lawful P size place where
  one := one
  ring := ring
  large j k p hj hl := by
    have away (q) (hk : place k = some q) : q ≠ ringBefore P p ∧ q ≠ ringAfter P p := by
      by_cases e : k = j
      · subst e
        rw [hj] at hk; cases hk
        obtain ⟨before, after⟩ := ring_neighbours_ne (p := p) hP
        exact ⟨before.symm, after.symm⟩
      · exact apart j k p q e hj hl hk
    exact ⟨fun hk => (away _ hk).1 rfl, fun hk => (away _ hk).2 rfl⟩

/-- R56, R64: places stay lawful when slots leave their pockets. -/
theorem Lawful.leave (h : Lawful P size place)
    (kept : ∀ k p, place' k = some p → place k = some p ∧ size' k = size k) : Lawful P size' place' where
  one j k p hj hk := h.one j k p (kept j p hj).1 (kept k p hk).1
  ring k p hk := h.ring k p (kept k p hk).1
  large j k p hj hl := by
    obtain ⟨stood, same⟩ := kept j p hj
    obtain ⟨before, after⟩ := h.large j k p stood (same ▸ hl)
    exact ⟨fun e => before (kept k _ e).1, fun e => after (kept k _ e).1⟩

/-- R56, R64: places stay lawful when slot `k` is put into a pocket that no other slot stands in, and with no other slot
beside it where one of the two is LARGE. -/
theorem Lawful.put (h : Lawful P size place) {k : Slot} {p : Nat} (hP : 2 ≤ P) (hp : 1 ≤ p ∧ p ≤ P)
    (put : place' k = some p) (kept : ∀ j q, j ≠ k → place' j = some q → place j = some q ∧ size' j = size j)
    (clear : ∀ j q, j ≠ k → place' j = some q →
      q ≠ p ∧ (size' k = .large ∨ size' j = .large → q ≠ ringBefore P p ∧ q ≠ ringAfter P p)) :
    Lawful P size' place' where
  one i j q hi hj := by
    by_cases ei : i = k <;> by_cases ej : j = k
    · rw [ei, ej]
    · subst ei; rw [put] at hi; cases hi; exact absurd rfl (clear j p ej hj).1
    · subst ej; rw [put] at hj; cases hj; exact absurd rfl (clear i p ei hi).1
    · exact h.one i j q (kept i q ei hi).1 (kept j q ej hj).1
  ring j q hj := by
    by_cases e : j = k
    · subst e; rw [put] at hj; cases hj; exact hp
    · exact h.ring j q (kept j q e hj).1
  large i j q hi hl := by
    by_cases ei : i = k <;> by_cases ej : j = k
    · subst ei ej; rw [put] at hi ⊢; cases hi
      obtain ⟨before, after⟩ := ring_neighbours_ne (p := p) hP
      exact ⟨fun e => before (Option.some.inj e).symm, fun e => after (Option.some.inj e).symm⟩
    · subst ei; rw [put] at hi; cases hi
      exact ⟨fun e => ((clear j _ ej e).2 (.inl hl)).1 rfl, fun e => ((clear j _ ej e).2 (.inl hl)).2 rfl⟩
    · subst ej
      obtain ⟨before, after⟩ := (clear i q ei hi).2 (.inr hl)
      have hq := h.ring i q (kept i q ei hi).1
      rw [put]
      exact ⟨fun e => after ((ringBefore_eq_iff hq hp).1 (Option.some.inj e).symm).symm,
        fun e => before ((ringBefore_eq_iff hp hq).2 (Option.some.inj e).symm).symm⟩
    · obtain ⟨stood, same⟩ := kept i q ei hi
      obtain ⟨before, after⟩ := h.large i j q stood (same ▸ hl)
      exact ⟨fun e => before (kept j _ ej e).1, fun e => after (kept j _ ej e).1⟩

end

/-! ### The ends of an exchange -/

/-- `e` is an end of the open exchange, a slot with its pocket, or no end: a revert puts the incoming slot back into its
pocket and a completed movement the outgoing one into its (R83, R86). -/
def State.HasEnd (s : State) (e : Option (Slot × Nat)) : Prop :=
  e = none ∨ ∃ x, s.exchange.open? = some x ∧ (e = x.movement.incoming ∨ e = x.movement.outgoing)

/-- The pocket in which slot `k` would stand with the end `e` in its pocket. -/
def State.pocketWith (s : State) (e : Option (Slot × Nat)) (k : Slot) : Option Nat :=
  match e with
  | none => s.pocketNow k
  | some (i, p) => if i = k then some p else s.pocketNow k

/-- R56, R64, R83, R86: the places are lawful as they stand and with either end in its pocket. -/
def State.EndsLawful (s : State) : Prop :=
  ∀ e, s.HasEnd e → Lawful s.pockets (fun k => (s.record k).size) (s.pocketWith e)

theorem State.pocketNow_eq_some (s : State) (k : Slot) (p : Nat) :
    s.pocketNow k = some p ↔ (s.record k).location = .pocket p := by
  unfold State.pocketNow
  split
  · rename_i q e; rw [e]; simp
  · rename_i e; simpa using e p

theorem State.pocketWith_eq_some (s : State) (e : Option (Slot × Nat)) (k : Slot) (p : Nat) :
    s.pocketWith e k = some p ↔
      e = some (k, p) ∨ (∀ q, e ≠ some (k, q)) ∧ (s.record k).location = .pocket p := by
  rw [← s.pocketNow_eq_some]
  unfold State.pocketWith
  rcases e with _ | ⟨i, q⟩
  · simp
  · by_cases h : i = k
    · subst h; simp
    · simp [h]

theorem State.pocketIfReverted_eq (s : State) :
    s.pocketIfReverted = s.pocketWith (s.exchange.open?.bind fun x => x.movement.incoming) := by
  funext k
  unfold State.pocketIfReverted State.pocketWith
  cases s.exchange.open? with
  | none => rfl
  | some x => cases hi : x.movement.incoming <;> simp [hi]

theorem State.pocketIfMoved_eq (s : State) :
    s.pocketIfMoved = s.pocketWith (s.exchange.open?.bind fun x => x.movement.outgoing) := by
  funext k
  unfold State.pocketIfMoved State.pocketWith
  cases s.exchange.open? with
  | none => rfl
  | some x => cases ho : x.movement.outgoing <;> simp [ho]

theorem State.endsLawful_iff (s : State) : s.EndsLawful ↔
    Lawful s.pockets (fun k => (s.record k).size) s.pocketNow ∧
    Lawful s.pockets (fun k => (s.record k).size) s.pocketIfReverted ∧
    Lawful s.pockets (fun k => (s.record k).size) s.pocketIfMoved := by
  rw [s.pocketIfReverted_eq, s.pocketIfMoved_eq]
  constructor
  · intro h
    cases hx : s.exchange.open? with
    | none => exact ⟨h none (.inl rfl), h none (.inl rfl), h none (.inl rfl)⟩
    | some x => exact ⟨h none (.inl rfl), h _ (.inr ⟨x, hx, .inl rfl⟩), h _ (.inr ⟨x, hx, .inr rfl⟩)⟩
  · rintro ⟨now, reverted, moved⟩ e (rfl | ⟨x, hx, rfl | rfl⟩)
    · exact now
    · rwa [hx] at reverted
    · rwa [hx] at moved

/-- With no exchange open the places are lawful when they are so as they stand. -/
theorem State.EndsLawful.of_idle {s : State} (hx : s.exchange = .idle)
    (h : Lawful s.pockets (fun k => (s.record k).size) s.pocketNow) : s.EndsLawful := by
  rintro e (rfl | ⟨x, hx', -⟩)
  · exact h
  · rw [hx] at hx'; cases hx'

/-! ### What the places are made of -/

/-- R4, R10, R71: the home pocket of the record lies in the ring, and a pocket that its location names is one of the
ring's. -/
def Record.Within (r : Record) (P : Nat) : Prop := r.home ≤ P ∧ ∀ p, r.location.pocketPart = some p → 1 ≤ p ∧ p ≤ P

/-- R55, R74: a running timer has 1 to 255 seconds. -/
def Exchange.TimerRanged (e : Exchange) : Prop := ∀ x n, e = .reserved x n → 1 ≤ n ∧ n ≤ 255

/-- R10, R55: the values in the valid copies of the array, those applied and those in flight lie in their ranges. -/
structure State.ArrayRanged (s : State) : Prop where
  copies : ∀ k : Slot, (s.slotCopies[k]).satisfies Record.numbered
  ring : ∀ c, s.config = some c → c.ranged
  cfgCopies : s.cfgCopies.satisfies Configuration.ranged
  flight : ∀ f, s.flight = some f → f.content.ranged

theorem State.placesSound_iff (s : State) : s.PlacesSound ↔
    s.EndsLawful ∧ (∀ k, (s.record k).Within s.pockets) ∧ s.ArrayRanged ∧ s.exchange.TimerRanged := by
  rw [s.endsLawful_iff]
  constructor
  · rintro ⟨now, reverted, moved, numbered, copies, ring, cfgCopies, flight, within, timer⟩
    exact ⟨⟨now, reverted, moved⟩, fun k => ⟨(within k).1, fun p hp => ⟨numbered k p hp, (within k).2 p hp⟩⟩,
      ⟨copies, ring, cfgCopies, flight⟩, timer⟩
  · rintro ⟨⟨now, reverted, moved⟩, within, ⟨copies, ring, cfgCopies, flight⟩, timer⟩
    exact ⟨now, reverted, moved, fun k p hp => ((within k).2 p hp).1, copies, ring, cfgCopies, flight,
      fun k => ⟨(within k).1, fun p hp => ((within k).2 p hp).2⟩, timer⟩

section
variable {s t : State}

theorem State.PlacesSound.lawful (h : s.PlacesSound) : s.EndsLawful := (s.placesSound_iff.1 h).1

theorem State.PlacesSound.record_within (h : s.PlacesSound) : ∀ k, (s.record k).Within s.pockets :=
  (s.placesSound_iff.1 h).2.1

theorem State.PlacesSound.array (h : s.PlacesSound) : s.ArrayRanged := (s.placesSound_iff.1 h).2.2.1

theorem State.PlacesSound.timerRanged (h : s.PlacesSound) : s.exchange.TimerRanged := (s.placesSound_iff.1 h).2.2.2

/-- A timer runs in RESERVED alone (R85). -/
theorem Exchange.TimerRanged.of_not_reserved {e : Exchange} (h : ∀ x n, e ≠ .reserved x n) : e.TimerRanged :=
  fun x n he => absurd he (h x n)

/-- The parts of the state that hold configuration values and persistent fields outside the image. -/
def State.arrayFields (s : State) : Option Configuration × Vector (CopyPair Record) 128 × CopyPair Configuration ×
    Option Snapshot :=
  (s.config, s.slotCopies, s.cfgCopies, s.flight.map Flight.content)

theorem State.config_of_arrayFields (e : t.arrayFields = s.arrayFields) : t.config = s.config :=
  (Prod.mk.inj e).1

theorem State.pockets_of_arrayFields (e : t.arrayFields = s.arrayFields) : t.pockets = s.pockets := by
  rw [State.pockets, State.config_of_arrayFields e, State.pockets]

theorem State.ArrayRanged.congr (h : s.ArrayRanged) (e : t.arrayFields = s.arrayFields) : t.ArrayRanged := by
  simp only [State.arrayFields, Prod.mk.injEq] at e
  obtain ⟨config, copies, cfgCopies, flight⟩ := e
  refine ⟨by rw [copies]; exact h.copies, by rw [config]; exact h.ring, by rw [cfgCopies]; exact h.cfgCopies,
    fun f hf => ?_⟩
  rw [hf, Option.map_some, eq_comm, Option.map_eq_some_iff] at flight
  obtain ⟨g, hg, content⟩ := flight
  rw [← content]; exact h.flight g hg

/-- R55: a ring that has a pocket is that of a configuration in its ranges. -/
theorem State.ArrayRanged.config_of_pocket (h : s.ArrayRanged) {p : Nat} (hp : 1 ≤ p ∧ p ≤ s.pockets) :
    ∃ c, s.config = some c ∧ c.ranged := by
  cases hc : s.config with
  | none => simp only [State.pockets, hc] at hp; omega
  | some c => exact ⟨c, rfl, h.ring c hc⟩

theorem State.ArrayRanged.two_le_pockets (h : s.ArrayRanged) {p : Nat} (hp : 1 ≤ p ∧ p ≤ s.pockets) :
    2 ≤ s.pockets := by
  obtain ⟨c, hc, ranged⟩ := h.config_of_pocket hp
  rw [State.pockets_of_config hc]
  exact le_trans (by decide) ranged.1

/-- What the places take from a record. -/
def Record.place (r : Record) : Location × Size × Nat := (r.location, r.size, r.home)

/-- A state with the exchange and the places of a sound one, whose array and applied ring are in range. -/
theorem State.PlacesSound.of_place_eq (h : s.PlacesSound) (hr : ∀ k, (t.record k).place = (s.record k).place)
    (hx : t.exchange = s.exchange) (hp : t.pockets = s.pockets) (ha : t.ArrayRanged) : t.PlacesSound := by
  have location (k) : (t.record k).location = (s.record k).location := congrArg Prod.fst (hr k)
  have size (k) : (t.record k).size = (s.record k).size := congrArg (fun x => x.2.1) (hr k)
  have home (k) : (t.record k).home = (s.record k).home := congrArg (fun x => x.2.2) (hr k)
  refine t.placesSound_iff.2 ⟨fun e he => ?_, fun k => ?_, ha, by rw [hx]; exact h.timerRanged⟩
  · rw [State.HasEnd, hx] at he
    rw [hp]
    refine (h.lawful e he).leave fun k p hk => ⟨?_, size k⟩
    rwa [State.pocketWith_eq_some, location, ← State.pocketWith_eq_some] at hk
  · rw [Record.Within, location, home, hp]; exact h.record_within k

/-- A state that agrees with a sound one in the image, the exchange and the array. -/
theorem State.PlacesSound.congr (h : s.PlacesSound) (hi : t.image = s.image) (hx : t.exchange = s.exchange)
    (ha : t.arrayFields = s.arrayFields) : t.PlacesSound :=
  h.of_place_eq (fun k => by rw [State.record_eq s t hi]) hx (State.pockets_of_arrayFields ha) (h.array.congr ha)

/-! ### Where the ends of a sound exchange are -/

theorem State.ExchangeSound.end_location (h : s.ExchangeSound) {k : Slot} {p : Nat} (he : s.HasEnd (some (k, p))) :
    s.Named k ∧ ((s.record k).location = .transitIn p ∨ (s.record k).location = .transitBack p ∨
      (s.record k).location = .unknown (some p)) := by
  obtain e | ⟨x, hx, e | e⟩ := he
  · cases e
  · refine ⟨.of_incoming hx e.symm, ?_⟩
    rcases h.incoming_ne hx e.symm with e | e <;> simp [e]
  · refine ⟨.of_outgoing hx e.symm, ?_⟩
    rcases h.outgoing_ne hx e.symm with e | e <;> simp [e]

/-- R74: the pocket of a slot, with an end in its pocket, is named by its location. -/
theorem State.ExchangeSound.pocketPart_of_end (h : s.ExchangeSound) {e : Option (Slot × Nat)} (he : s.HasEnd e)
    {k : Slot} {p : Nat} (hk : s.pocketWith e k = some p) : (s.record k).location.pocketPart = some p := by
  rcases (s.pocketWith_eq_some e k p).1 hk with rfl | ⟨-, hl⟩
  · obtain ⟨-, l | l | l⟩ := h.end_location he <;> rw [l] <;> rfl
  · rw [hl]; rfl

/-- R12: a location that names a pocket is a tool's. -/
theorem State.TableSound.tool_of_pocketPart (h : s.TableSound) {k : Slot} {p : Nat}
    (hp : (s.record k).location.pocketPart = some p) : (s.record k).condition ≠ .vacant :=
  (h.records.image k).occupied fun e => by rw [e] at hp; cases hp

/-- R64: a valid placement meets no tool of its view at any end of the exchange. -/
theorem State.TableSound.clear_of_placeable (h : s.TableSound) {gone : List Slot} {z : Size} {p : Nat}
    (hp : s.placeable gone z p = true) {j : Slot} (hj : j ∉ gone) {q : Nat}
    (hq : (s.record j).location.pocketPart = some q) :
    q ≠ p ∧ (z = .large ∨ (s.record j).size = .large → q ≠ ringBefore s.pockets p ∧ q ≠ ringAfter s.pockets p) := by
  obtain ⟨free, beside⟩ := ((s.placeable_iff gone z p).1 hp).2.2 j hj (h.tool_of_pocketPart hq)
  rw [hq] at free beside
  simpa using And.intro free beside

end

end Sys2Proof.Machine

namespace Sys2Proof.Machine

/-! ### One slot rewritten -/

section
variable {s t : State} {k : Slot} {new : Record}

/-- R56, R64, R94: the places stay lawful when slot `k` goes to no pocket but the one it stands in, at the size it has
there, and, if the exchange names it, keeps its place. -/
theorem State.EndsLawful.wrote_leaving (h : s.EndsLawful) (hs : s.ExchangeSound) (hw : s.Wrote t k new)
    (hx : t.exchange = s.exchange) (hp : t.pockets = s.pockets)
    (stays : ∀ p, new.location = .pocket p → (s.record k).location = .pocket p ∧ new.size = (s.record k).size)
    (named : s.Named k → new.location = (s.record k).location ∧ new.size = (s.record k).size) : t.EndsLawful := by
  intro e he
  rw [State.HasEnd, hx] at he
  rw [hp]
  refine (h e he).leave fun j p hj => ?_
  rw [State.pocketWith_eq_some] at hj ⊢
  by_cases ej : j = k
  · subst ej
    rw [hw.1] at hj ⊢
    rcases hj with rfl | ⟨no, hl⟩
    · exact ⟨.inl rfl, (named (hs.end_location he).1).2⟩
    · exact ⟨.inr ⟨no, (stays p hl).1⟩, (stays p hl).2⟩
  · rw [hw.2 j ej] at hj ⊢
    exact ⟨hj, rfl⟩

/-- R64, R65: the places stay lawful when a slot that the exchange does not name is put where it may be placed. -/
theorem State.EndsLawful.wrote_placed (h : s.EndsLawful) (hs : s.TableSound) (ha : s.ArrayRanged)
    (hw : s.Wrote t k new) (hx : t.exchange = s.exchange) (hp : t.pockets = s.pockets) {p : Nat}
    (hl : new.location = .pocket p) (placeable : s.placeable [k] new.size p = true) (unnamed : ¬ s.Named k) :
    t.EndsLawful := by
  intro e he
  rw [State.HasEnd, hx] at he
  have ring := s.placeable_ring _ _ _ placeable
  have no (q) : e ≠ some (k, q) := by
    rintro rfl; exact unnamed (hs.exchange.end_location he).1
  have others (j q) (hj : j ≠ k) (hq : t.pocketWith e j = some q) : s.pocketWith e j = some q := by
    rwa [State.pocketWith_eq_some, hw.2 j hj, ← State.pocketWith_eq_some] at hq
  rw [hp]
  refine (h e he).put (k := k) (p := p) (ha.two_le_pockets ring) ring ?_
    (fun j q hj hq => ⟨others j q hj hq, by rw [hw.2 j hj]⟩) fun j q hj hq => ?_
  · rw [State.pocketWith_eq_some, hw.1]; exact .inr ⟨no, hl⟩
  · rw [hw.1, hw.2 j hj]
    exact hs.clear_of_placeable placeable (by simpa using hj) (hs.exchange.pocketPart_of_end he (others j q hj hq))

/-- A claim writes no value of the array. -/
theorem State.claim_arrayFields (s : State) (k : Slot) (new : Record) (c : CommitClass) :
    (s.claim k new c).arrayFields = s.arrayFields := by
  simp [State.arrayFields]

/-- A claim of fields at the same place keeps the places. -/
theorem State.PlacesSound.claim_in_place (h : s.PlacesSound) (c : CommitClass) (hn : new.place = (s.record k).place) :
    (s.claim k new c).PlacesSound := by
  have array := s.claim_arrayFields k new c
  refine h.of_place_eq (fun j => ?_) (by simp) (State.pockets_of_arrayFields array) (h.array.congr array)
  by_cases e : j = k
  · subst e; rw [State.claim_record_self, hn]
  · rw [State.claim_record_other _ _ _ _ e]

/-- R20–R23: a charge leaves a tool in its place. -/
theorem Record.afterCharge_place (r : Record) (n : Nat) : (r.afterCharge n).place = r.place := by
  unfold Record.afterCharge
  split <;> [rfl; skip]
  split <;> rfl

/-- R19–R24: a CHARGE keeps the places. -/
theorem State.PlacesSound.decideCharge (h : s.PlacesSound) (n : Nat) : (s.decideCharge n).PlacesSound := by
  cases hs : s.spindle with
  | holds k =>
    rw [State.decideCharge_holds s n k hs]
    exact (h.claim_in_place _ (Record.afterCharge_place _ n)).congr rfl rfl rfl
  | empty | unknown | exchanging =>
    rw [State.decideCharge, hs]; exact h.congr rfl rfl rfl

/-- R26: a DAMAGE keeps the places. -/
theorem State.PlacesSound.decideDamage (h : s.PlacesSound) : s.decideDamage.PlacesSound := by
  cases hs : s.spindle with
  | holds k =>
    rw [State.decideDamage_holds s k hs]
    have hc : (s.claim k { s.record k with condition := .damaged } .urgent).PlacesSound := h.claim_in_place _ rfl
    exact hc.congr rfl rfl rfl
  | empty | unknown | exchanging =>
    rw [State.decideDamage, hs]; exact h.congr rfl rfl rfl

/-- R139: ATTN is no part of a place. -/
theorem State.PlacesSound.setAttn (h : s.PlacesSound) (k : Slot) (v : Bool) : (s.setAttn k v).PlacesSound :=
  h.of_place_eq (fun j => by rw [s.record_setAttn]) rfl rfl (h.array.congr rfl)

/-- R15, R130: a RETRY_STORE changes no persistent field. -/
theorem State.PlacesSound.retry (h : s.PlacesSound) (k : Slot) : (s.retry k).PlacesSound := by
  have image : ∃ x, x.fields = s.record k ∧ (s.retry k).image = s.image.set k x := by
    unfold State.retry
    split
    · exact ⟨{ s.slot k with storeFault := false }, rfl, rfl⟩
    · exact ⟨{ s.slot k with storeFault := false, dirty := true }, rfl, rfl⟩
  obtain ⟨x, fields, image⟩ := image
  have array : (s.retry k).arrayFields = s.arrayFields := by simp [State.arrayFields]
  exact h.of_place_eq (fun j => by rw [State.record_of_image_set image fields]) (by simp)
    (State.pockets_of_arrayFields array) (h.array.congr array)

/-- R12: a VACANT slot names no pocket. -/
theorem Record.vacant_within (P : Nat) : Record.vacant.Within P := ⟨Nat.zero_le P, fun _ hp => nomatch hp⟩

/-- The records of the ring are those of before, but for one that lies within it too. -/
theorem State.Wrote.within (hw : s.Wrote t k new) (h : ∀ j, (s.record j).Within s.pockets)
    (hn : new.Within s.pockets) (j : Slot) : (t.record j).Within s.pockets := by
  by_cases e : j = k
  · subst e; rw [hw.1]; exact hn
  · rw [hw.2 j e]; exact h j

/-- R12, R129: a RELEASE keeps the places: the slot that it vacates is named by no exchange. -/
theorem State.PlacesSound.vacate (h : s.PlacesSound) (hs : s.TableSound) (hn : s.exchange.names k = false) :
    ((s.claim k Record.vacant .normal).setAttn k false).PlacesSound := by
  refine State.PlacesSound.setAttn ?_ k false
  have hw := s.wrote_claim k Record.vacant .normal
  have array := s.claim_arrayFields k Record.vacant .normal
  have pockets := State.pockets_of_arrayFields array
  refine (State.placesSound_iff _).2 ⟨h.lawful.wrote_leaving hs.exchange hw (by simp) pockets (fun p hp => nomatch hp)
    (fun named => ?_), fun j => ?_, h.array.congr array, by rw [State.claim_exchange]; exact h.timerRanged⟩
  · rw [← Exchange.names_iff, hn] at named; cases named
  · rw [pockets]; exact hw.within h.record_within (Record.vacant_within _) j

/-! ### STORE -/

/-- R124: what a STORE accepts lies within the ring, when the record that it replaces does. -/
theorem WorkFields.Accepted.within {w : WorkFields} {P : Nat} {r : Record} (h : w.Accepted P r.location)
    (hr : r.Within P) : (w.toStore r).Within P := by
  obtain ⟨-, -, -, -, -, -, -, -, -, home, codes⟩ := h
  refine ⟨home, fun p hp => ?_⟩
  replace hp : w.location.pocketPart = some p := hp
  unfold WorkFields.location at hp
  rcases codes with ⟨e, l1, l2⟩ | e | e | ⟨e, -, image⟩ | ⟨e, l⟩
  · rw [if_pos e] at hp; cases hp; exact ⟨l1, l2⟩
  · simp [e, Location.pocketPart] at hp
  · simp [e, Location.pocketPart] at hp
  · have same : p = w.locPocket.toNat := by
      rcases e with e | e <;> simpa [e, Location.pocketPart, eq_comm] using hp
    exact hr.2 p (same ▸ image)
  · by_cases h0 : w.locPocket.toNat = 0
    · simp [e, h0, Location.pocketPart] at hp
    · simp only [e, h0, Location.pocketPart, if_false, Nat.reduceEqDiff, Option.some.injEq] at hp
      omega

/-- R65, R94, R126: an accepted STORE keeps the places: it puts the slot where it may be placed, or leaves it in its
pocket, or takes it out of the pockets. -/
theorem State.EndsLawful.applyStore (h : s.EndsLawful) (hs : s.TableSound) (ha : s.ArrayRanged)
    (hj : s.judgeStore k = .ok new) : (s.applyStore k new).EndsLawful := by
  obtain ⟨-, -, -, unlocked, placed, -⟩ := State.judgeStore_ok hj
  have hw : s.Wrote (s.applyStore k new) k new := s.wrote_claim k new _
  have exchange : (s.applyStore k new).exchange = s.exchange := by simp
  have pockets : (s.applyStore k new).pockets = s.pockets := by simp [State.pockets]
  have named (hk : s.Named k) : new.location = (s.record k).location ∧ new.size = (s.record k).size := by
    constructor
    · by_contra hc; exact unlocked ⟨hk, .inr (.inr (.inr hc))⟩
    · by_contra hc; exact unlocked ⟨hk, .inr (.inr (.inl hc))⟩
  by_cases judged : ∃ p, new.location = .pocket p ∧
      ((s.record k).location ≠ .pocket p ∨ new.size ≠ (s.record k).size)
  · obtain ⟨p, hl, changes⟩ := judged
    refine h.wrote_placed hs ha hw exchange pockets hl ?_ fun hk => ?_
    · by_contra hc; exact placed ⟨p, hl, changes, by simpa using hc⟩
    · obtain ⟨location, size⟩ := named hk
      exact changes.elim (fun c => c (location ▸ hl)) (fun c => c size)
  · refine h.wrote_leaving hs.exchange hw exchange pockets (fun p hl => ?_) named
    by_contra hc
    exact judged ⟨p, hl, by tauto⟩

/-- R122–R127: an accepted STORE keeps the places. -/
theorem State.PlacesSound.applyStore (h : s.PlacesSound) (hs : s.TableSound) (hj : s.judgeStore k = .ok new) :
    (s.applyStore k new).PlacesSound := by
  obtain ⟨accepted, fields, -⟩ := State.judgeStore_ok hj
  have hw : s.Wrote (s.applyStore k new) k new := s.wrote_claim k new _
  have array : (s.applyStore k new).arrayFields = s.arrayFields := by simp [State.arrayFields]
  refine (State.placesSound_iff _).2 ⟨h.lawful.applyStore hs h.array hj, fun j => ?_, h.array.congr array,
    by rw [State.applyStore_exchange]; exact h.timerRanged⟩
  rw [State.pockets_of_arrayFields array]
  exact hw.within h.record_within (fields ▸ accepted.within (h.record_within k)) j

/-! ### CONFIG_STORE -/

/-- R71, case 2: staged values are in range. -/
theorem HostPort.Stages.ranged {p : HostPort} {c : Configuration} (h : p.Stages c) : c.ranged := by
  obtain ⟨⟨h8, h120⟩, -, h1, rfl⟩ := h
  exact ⟨h8, h120, h1, Nat.le_of_lt_succ p.stageTimeout.isLt⟩

/-- R71, case 3: with no tool beyond the ring of `P` pockets every record lies within it. -/
theorem State.PlacesSound.within_of_not_beyond (h : s.PlacesSound) (hs : s.TableSound) {P : Nat}
    (hb : ¬ s.BeyondRing P) (k : Slot) : (s.record k).Within P := by
  by_cases hv : (s.record k).condition = .vacant
  · rw [(hs.records.image k).2.1 hv]; exact Record.vacant_within P
  · refine ⟨Nat.le_of_not_lt fun e => hb ⟨k, hv, .inr e⟩, fun p hp => ⟨((h.record_within k).2 p hp).1, ?_⟩⟩
    exact Nat.le_of_not_lt fun e => hb ⟨k, hv, .inl ⟨p, hp, e⟩⟩

/-- R71, cases 3 and 4: the places as they stand are lawful in the ring of `P` pockets too. -/
theorem State.PlacesSound.lawful_of_not_crowded (h : s.PlacesSound) (hs : s.TableSound) {P : Nat} (hP : 2 ≤ P)
    (hb : ¬ s.BeyondRing P) (hc : ¬ s.Crowded P) : Lawful P (fun k => (s.record k).size) s.pocketNow := by
  refine .of_apart hP h.now.one (fun k p hk => ?_) fun j k p q other hj hl hk => ?_
  · rw [State.pocketNow_eq_some] at hk
    exact (h.within_of_not_beyond hs hb k).2 p (by rw [hk]; rfl)
  · rw [State.pocketNow_eq_some] at hj hk
    have crowds (hq : q = ringBefore P p ∨ q = ringAfter P p) : s.Crowded P := by
      have part : (s.record k).location.pocketPart = some q := by rw [hk]; rfl
      refine ⟨j, k, p, other.symm, hs.tool_of_pocketPart (p := p) (by rw [hj]; rfl), hs.tool_of_pocketPart part, hl,
        .inl hj, ?_⟩
      rw [part]
      exact hq.imp (congrArg some) (congrArg some)
    exact ⟨fun e => hc (crowds (.inl e)), fun e => hc (crowds (.inr e))⟩

/-- R71, R72: the values that a CONFIG_STORE applies keep the places. -/
theorem State.PlacesSound.applyConfig (h : s.PlacesSound) (hs : s.TableSound) {c : Configuration}
    (staged : s.host.staged = some c) (hc : (s.beyond c.pockets || s.crowded c.pockets) = false)
    (hx : s.exchange = .idle) : (s.applyConfig c).PlacesSound := by
  have ranged := ((HostPort.staged_iff _ c).1 staged).ranged
  rw [Bool.or_eq_false_iff, ← Bool.not_eq_true, ← Bool.not_eq_true, State.beyond_iff, State.crowded_iff] at hc
  have config : (s.applyConfig c).config = some c := by
    by_cases e : s.config = some c
    · rw [s.applyConfig_of_eq e, e]
    · rw [s.applyConfig_of_ne e]
  have pockets := State.pockets_of_config config
  have record := State.record_eq s (s.applyConfig c) (by simp)
  have exchange : (s.applyConfig c).exchange = .idle := by simpa using hx
  have now : (s.applyConfig c).pocketNow = s.pocketNow := by
    funext k; rw [State.pocketNow, record]; rfl
  refine (State.placesSound_iff _).2 ⟨.of_idle exchange ?_, fun k => ?_,
    ⟨by simpa using h.copies, fun d hd => ?_, by simpa using h.cfgCopies, by simpa using h.flight⟩,
    by rw [exchange]; exact .of_not_reserved (by simp)⟩
  · simp only [now, pockets, record]
    exact h.lawful_of_not_crowded hs (le_trans (by decide) ranged.1) hc.1 hc.2
  · rw [record, pockets]; exact h.within_of_not_beyond hs hc.1 k
  · rw [config] at hd; cases hd; exact ranged

end

end Sys2Proof.Machine

namespace Sys2Proof.Machine

/-! ### The movements of the exchange -/

/-- What an exchange claim makes of a record and a pocket: the size stays, and the location and the home pocket take no
pocket but that one. -/
structure Shifts (f : Nat → Record → Record) : Prop where
  size : ∀ p r, (f p r).size = r.size
  part : ∀ p r q, (f p r).location.pocketPart = some q → q = p
  home : ∀ p r, (f p r).home = r.home ∨ (f p r).home = p

theorem Shifts.within {f : Nat → Record → Record} (hf : Shifts f) {P p : Nat} {r : Record} (hr : r.Within P)
    (hp : 1 ≤ p ∧ p ≤ P) : (f p r).Within P := by
  refine ⟨?_, fun q hq => hf.part p r q hq ▸ hp⟩
  rcases hf.home p r with e | e <;> rw [e]
  · exact hr.1
  · exact hp.2

/-- A change of the location alone, to one that names no pocket but the end's. -/
theorem Shifts.location {g : Nat → Location} (h : ∀ p q, (g p).pocketPart = some q → q = p) :
    Shifts (fun p r => { r with location := g p }) :=
  ⟨fun _ _ => rfl, fun p _ q hq => h p q hq, fun _ _ => .inl rfl⟩

/-- R86: the outgoing slot takes the return pocket and has it as its home. -/
theorem Shifts.land : Shifts (fun p r => { r with location := .pocket p, home := p }) :=
  ⟨fun _ _ => rfl, fun _ _ _ hq => (Option.some.inj hq).symm, fun _ _ => .inr rfl⟩

/-- The pockets of the two ends of a movement lie in the ring. -/
def Movement.InRing (m : Movement) (P : Nat) : Prop :=
  ∀ k p, m.incoming = some (k, p) ∨ m.outgoing = some (k, p) → 1 ≤ p ∧ p ≤ P

section
variable {s t : State} {m : Movement} {f g : Nat → Record → Record}

/-- The records after a list of exchange claims on the ends of a movement, case by case. -/
theorem State.Rewritten.record_cases (h : s.Rewritten t (s.movedFields m f g)) (k : Slot) :
    (∃ p, m.incoming = some (k, p) ∧ t.record k = f p (s.record k)) ∨
      (∃ p, m.outgoing = some (k, p) ∧ t.record k = g p (s.record k)) ∨ (k ∉ m.named ∧ t.record k = s.record k) := by
  have written (r) (hm : (k, r) ∈ s.movedFields m f g) : t.record k = r := by rw [State.record, h.named k r hm]
  by_cases hk : k ∈ m.named
  · rcases (m.mem_named k).1 hk with ⟨p, hp⟩ | ⟨p, hp⟩
    · exact .inl ⟨p, hp, written _ ((State.mem_movedFields ..).2 (.inl ⟨p, hp, rfl⟩))⟩
    · exact .inr (.inl ⟨p, hp, written _ ((State.mem_movedFields ..).2 (.inr ⟨p, hp, rfl⟩))⟩)
  · refine .inr (.inr ⟨hk, ?_⟩)
    rw [State.record, h.others k (by rwa [State.movedFields_slots])]; rfl

theorem State.Rewritten.size (h : s.Rewritten t (s.movedFields m f g)) (hf : Shifts f) (hg : Shifts g) (k : Slot) :
    (t.record k).size = (s.record k).size := by
  rcases h.record_cases k with ⟨p, -, e⟩ | ⟨p, -, e⟩ | ⟨-, e⟩ <;> rw [e]
  · exact hf.size p _
  · exact hg.size p _

/-- A movement between pockets of the ring keeps every record within it. -/
theorem State.Rewritten.within (h : s.Rewritten t (s.movedFields m f g)) (hf : Shifts f) (hg : Shifts g) {P : Nat}
    (hs : ∀ k, (s.record k).Within P) (hm : m.InRing P) (k : Slot) : (t.record k).Within P := by
  rcases h.record_cases k with ⟨p, hp, e⟩ | ⟨p, hp, e⟩ | ⟨-, e⟩ <;> rw [e]
  · exact hf.within (hs k) (hm k p (.inl hp))
  · exact hg.within (hs k) (hm k p (.inr hp))
  · exact hs k

theorem State.HasEnd.incoming {x : OpenExchange} (hx : s.exchange.open? = some x) : s.HasEnd x.movement.incoming :=
  .inr ⟨x, hx, .inl rfl⟩

theorem State.HasEnd.outgoing {x : OpenExchange} (hx : s.exchange.open? = some x) : s.HasEnd x.movement.outgoing :=
  .inr ⟨x, hx, .inr rfl⟩

/-- R74: the pockets of an open exchange lie in the ring, as each end would stand in its pocket. -/
theorem State.EndsLawful.inRing (h : s.EndsLawful) {x : OpenExchange} (hx : s.exchange.open? = some x) :
    x.movement.InRing s.pockets := by
  have stands (k p) (he : s.HasEnd (some (k, p))) : 1 ≤ p ∧ p ≤ s.pockets :=
    (h _ he).ring k p ((s.pocketWith_eq_some _ k p).2 (.inl rfl))
  rintro k p (hk | hk)
  · exact stands k p (hk ▸ .incoming hx)
  · exact stands k p (hk ▸ .outgoing hx)

/-- R75: an exchange that is open has a slot with its pocket. -/
theorem Movement.has_end (m : Movement) : ∃ k p, m.incoming = some (k, p) ∨ m.outgoing = some (k, p) := by
  cases m with
  | call k p o => exact ⟨k, p, .inl rfl⟩
  | putaway k p => exact ⟨k, p, .inr rfl⟩

/-- A slot that the movement does not name has its pocket whatever end is in place. -/
theorem State.pocketWith_of_not_named {x : OpenExchange} {k : Slot} {p : Nat} (hk : k ∉ x.movement.named)
    (hl : (s.record k).location = .pocket p) :
    s.pocketWith x.movement.incoming k = some p ∧ s.pocketWith x.movement.outgoing k = some p := by
  rw [Movement.mem_named, not_or, not_exists, not_exists] at hk
  rw [State.pocketWith_eq_some, State.pocketWith_eq_some]
  exact ⟨.inr ⟨hk.1, hl⟩, .inr ⟨hk.2, hl⟩⟩

/-- R83, R86: a movement that ends the exchange leaves lawful places, when they were lawful with the end `e` in its
pocket and no slot but that end has come into a pocket. -/
theorem State.PlacesSound.ended {x : OpenExchange} (h : s.PlacesSound) (hx : s.exchange.open? = some x)
    (hr : s.Rewritten t (s.movedFields x.movement f g)) (hf : Shifts f) (hg : Shifts g) {e : Option (Slot × Nat)}
    (he : s.HasEnd e) (into : ∀ k p, (t.record k).location = .pocket p → s.pocketWith e k = some p)
    (idle : t.exchange = .idle) (array : t.arrayFields = s.arrayFields) : t.PlacesSound := by
  have pockets := State.pockets_of_arrayFields array
  refine t.placesSound_iff.2 ⟨.of_idle idle ?_, fun k => ?_, h.array.congr array,
    by rw [idle]; exact .of_not_reserved (by simp)⟩
  · rw [pockets]
    exact (h.lawful e he).leave fun k p hk => ⟨into k p ((t.pocketNow_eq_some k p).1 hk), hr.size hf hg k⟩
  · rw [pockets]; exact hr.within hf hg h.record_within (h.lawful.inRing hx) k

/-- R86, R93: a completed movement keeps the places: it leaves them as they were with the outgoing slot in its return
pocket, "valid without a test". -/
theorem State.PlacesSound.completeMove (h : s.PlacesSound) (hs : s.TableSound) {x : OpenExchange}
    (hx : s.exchange.open? = some x) : (s.completeMove x.movement).PlacesSound := by
  have hr := s.rewritten_completeMove hs.exchange hx
  refine h.ended hx hr (.location fun _ _ hq => nomatch hq) .land (.outgoing hx) (fun k p hk => ?_) rfl
    (by simp [State.arrayFields])
  rcases hr.record_cases k with ⟨q, -, e⟩ | ⟨q, hq, e⟩ | ⟨hn, e⟩ <;> rw [e] at hk
  · cases hk
  · cases hk; rw [State.pocketWith_eq_some]; exact .inl hq
  · exact (State.pocketWith_of_not_named hn hk).2

/-- R83, R93: a revert keeps the places: it leaves them as they were with the incoming slot in its source pocket. -/
theorem State.PlacesSound.revert (h : s.PlacesSound) (hs : s.TableSound) {x : OpenExchange}
    (hx : s.exchange.open? = some x) : (s.revert x.movement).PlacesSound := by
  have hr := s.rewritten_revert hs.exchange hx
  refine h.ended hx hr (.location fun _ _ hq => (Option.some.inj hq).symm) (.location fun _ _ hq => nomatch hq)
    (.incoming hx) (fun k p hk => ?_) rfl (by simp [State.arrayFields])
  rcases hr.record_cases k with ⟨q, hq, e⟩ | ⟨q, -, e⟩ | ⟨hn, e⟩ <;> rw [e] at hk
  · cases hk; rw [State.pocketWith_eq_some]; exact .inl hq
  · cases hk
  · exact (State.pocketWith_of_not_named hn hk).1

/-- R90, R92: a suspicion keeps the places: the ends of the exchange are the same, and no slot comes into a pocket. -/
theorem State.PlacesSound.suspectExchange (h : s.PlacesSound) (hs : s.TableSound) {x : OpenExchange}
    (hx : s.exchange.moving? = some x) (c : Suspicion) : (s.suspectExchange x c).PlacesSound := by
  have hopen := Exchange.open?_of_moving? hx
  have quiet : s.exchange.suspect? = none := by
    cases e : s.exchange <;> simp [e, Exchange.moving?, Exchange.suspect?] at hx ⊢
  have hr := s.rewritten_suspectExchange hs.exchange hopen quiet c
  have array : (s.suspectExchange x c).arrayFields = s.arrayFields := by simp [State.arrayFields]
  have pockets := State.pockets_of_arrayFields array
  have exchange : (s.suspectExchange x c).exchange = .suspect x c := rfl
  have shifts : Shifts (fun p r => { r with location := .unknown (some p) }) :=
    .location fun _ _ hq => (Option.some.inj hq).symm
  refine (State.placesSound_iff _).2 ⟨fun e he => ?_, fun k => ?_, h.array.congr array,
    by rw [exchange]; exact .of_not_reserved (by simp)⟩
  · rw [State.HasEnd, exchange, show (Exchange.suspect x c).open? = s.exchange.open? from hopen.symm] at he
    rw [pockets]
    refine (h.lawful e he).leave fun k p hk => ⟨?_, hr.size shifts shifts k⟩
    rw [State.pocketWith_eq_some] at hk ⊢
    refine hk.imp_right fun ⟨no, hl⟩ => ⟨no, ?_⟩
    rcases hr.record_cases k with ⟨q, -, e'⟩ | ⟨q, -, e'⟩ | ⟨-, e'⟩ <;> rw [e'] at hl
    · cases hl
    · cases hl
    · exact hl
  · rw [pockets]; exact hr.within shifts shifts h.record_within (h.lawful.inRing hopen) k

/-- R80, R158: the waiting for commits marks flights and changes none of their contents. -/
theorem State.awaitCommits_arrayFields (s : State) (m : Movement) (w : Withheld) :
    (s.awaitCommits m w).arrayFields = s.arrayFields := by
  have flight := (State.awaited_awaitCommits s s m w rfl rfl).flight
  have content (y : Flight) :
      (if ∃ k ∈ m.named, y.content.entry = .slot k then { y with confirmSet := true } else y).content = y.content := by
    rw [apply_ite Flight.content, ite_self]
  rw [State.arrayFields, flight, Option.map_map]
  simp only [Function.comp_def, content, State.awaitCommits_config, State.awaitCommits_slotCopies,
    State.awaitCommits_cfgCopies]
  rfl

/-- R80, R158: the waiting for commits keeps the places. -/
theorem State.PlacesSound.awaitCommits (h : s.PlacesSound) (m : Movement) (w : Withheld) :
    (s.awaitCommits m w).PlacesSound :=
  h.congr (by simp) (by simp) (s.awaitCommits_arrayFields m w)

/-! ### The open -/

/-- R48, R64, R77: what an open asks of the places: two tools, the incoming one in its source pocket, the outgoing one
in the spindle with a return pocket that is valid in the view without the two. -/
structure State.MayOpen (s : State) (m : Movement) : Prop where
  distinct : m.distinct
  source : ∀ k p, m.incoming = some (k, p) → (s.record k).location = .pocket p
  spindle : ∀ k p, m.outgoing = some (k, p) → (s.record k).location = .spindle
  target : ∀ k p, m.outgoing = some (k, p) → ∃ gone, gone ⊆ m.named ∧ s.placeable gone (s.record k).size p = true

/-- R78: what an open makes of the records. -/
theorem State.MayOpen.rewritten (h : s.MayOpen m) : s.Rewritten (s.openExchange m) (s.fieldsIfOpened m) := by
  have hr := State.rewritten_movedFields s m h.distinct (fun p r => { r with location := .transitIn p })
    (fun p r => { r with location := .transitBack p })
    (fun k p e => Record.location_ne _ _ (by rw [h.source k p e]; simp))
    (fun k p e => Record.location_ne _ _ (by rw [h.spindle k p e]; simp))
  rw [← State.moveBoth_eq_rewrite s m h.distinct] at hr
  exact hr.congr (by simp [State.openExchange]) (by simp [State.openExchange])

/-- R78: an open writes no value of the array. -/
theorem State.openExchange_arrayFields (s : State) (m : Movement) : (s.openExchange m).arrayFields = s.arrayFields := by
  rw [State.openExchange, State.awaitCommits_arrayFields]
  simp [State.arrayFields]

theorem State.openExchange_exchange_eq (s : State) (m : Movement) :
    (s.openExchange m).exchange = .offered { tag := s.nextTag, movement := m } := by
  simp [State.openExchange]

/-- R55, R64: the source pocket and the return pocket of an open lie in the ring. -/
theorem State.MayOpen.inRing (h : s.MayOpen m) (hs : s.PlacesSound) : m.InRing s.pockets := by
  rintro k p (hk | hk)
  · exact (hs.record_within k).2 p (by rw [h.source k p hk]; rfl)
  · obtain ⟨gone, -, placeable⟩ := h.target k p hk
    exact s.placeable_ring _ _ _ placeable

/-- R78: after an open no named slot is in a pocket, and every other is where it was. -/
theorem State.MayOpen.pocket_after (h : s.MayOpen m) {k : Slot} {p : Nat}
    (hk : ((s.openExchange m).record k).location = .pocket p) : k ∉ m.named ∧ (s.record k).location = .pocket p := by
  rcases h.rewritten.record_cases k with ⟨q, -, e⟩ | ⟨q, -, e⟩ | ⟨hn, e⟩ <;> rw [e] at hk
  · cases hk
  · cases hk
  · exact ⟨hn, hk⟩

/-- R64, R78: an open keeps the places: as they stand and with the incoming slot back in its pocket they are those of
before, and the return pocket is valid for the outgoing slot. -/
theorem State.PlacesSound.openExchange (hs : s.PlacesSound) (ht : s.TableSound) (h : s.MayOpen m) :
    (s.openExchange m).PlacesSound := by
  have array := s.openExchange_arrayFields m
  have pockets := State.pockets_of_arrayFields array
  have exchange := s.openExchange_exchange_eq m
  have inward : Shifts (fun p r => { r with location := .transitIn p }) :=
    .location fun _ _ hq => (Option.some.inj hq).symm
  have outward : Shifts (fun p r => { r with location := .transitBack p }) :=
    .location fun _ _ hq => (Option.some.inj hq).symm
  have size := h.rewritten.size inward outward
  have now : Lawful s.pockets (fun k => ((s.openExchange m).record k).size) (s.openExchange m).pocketNow :=
    hs.now.leave fun k p hk =>
      ⟨(s.pocketNow_eq_some k p).2 (h.pocket_after ((State.pocketNow_eq_some _ k p).1 hk)).2, size k⟩
  refine (State.placesSound_iff _).2 ⟨fun e he => ?_, fun k => ?_, hs.array.congr array,
    by rw [exchange]; exact .of_not_reserved (by simp)⟩
  · rw [pockets]
    rw [State.HasEnd, exchange] at he
    obtain rfl | ⟨x, hx, he⟩ := he
    · exact now
    cases hx
    obtain rfl | rfl := he
    · refine hs.now.leave fun k p hk => ⟨(s.pocketNow_eq_some k p).2 ?_, size k⟩
      rcases (State.pocketWith_eq_some _ _ k p).1 hk with e | ⟨-, hl⟩
      · exact h.source k p e
      · exact (h.pocket_after hl).2
    · cases ho : m.outgoing with
      | none => exact now
      | some b =>
        obtain ⟨k, p⟩ := b
        obtain ⟨gone, view, placeable⟩ := h.target k p ho
        have ring := s.placeable_ring _ _ _ placeable
        have others (j q) (hj : j ≠ k) (hq : (s.openExchange m).pocketWith (some (k, p)) j = some q) :
            ((s.openExchange m).record j).location = .pocket q := by
          rcases (State.pocketWith_eq_some _ _ j q).1 hq with e | ⟨-, hl⟩
          · cases e; exact absurd rfl hj
          · exact hl
        refine now.put (k := k) (p := p) (hs.array.two_le_pockets ring) ring
          ((State.pocketWith_eq_some _ _ k p).2 (.inl rfl))
          (fun j q hj hq => ⟨(State.pocketNow_eq_some _ j q).2 (others j q hj hq), rfl⟩) fun j q hj hq => ?_
        obtain ⟨unnamed, hl⟩ := h.pocket_after (others j q hj hq)
        rw [size, size]
        exact ht.clear_of_placeable placeable (fun hg => unnamed (view hg)) (by rw [hl]; rfl)
  · rw [pockets]; exact h.rewritten.within inward outward hs.record_within (h.inRing hs) k

end

end Sys2Proof.Machine

namespace Sys2Proof.Machine

section
variable {s t : State}

/-! ### The decisions of the Exchange Controller -/

/-- R64, R66, R67: a return pocket chosen for a CALL is valid in the view without the two slots. -/
theorem State.placeable_of_returnForCall {k i : Slot} {src r : Nat} (h : s.returnForCall k i src = .chosen r) :
    s.placeable [k, i] (s.record k).size r = true := by
  unfold State.returnForCall at h
  split at h
  · split at h <;> cases h
    rename_i hp; exact hp.2
  · split at h <;> cases h
    rename_i hf; exact List.find?_some hf

/-- R64, R68: a return pocket chosen for a PUTAWAY is valid in the view without the slot. -/
theorem State.placeable_of_returnForPutaway {k : Slot} {r : Nat} (h : s.returnForPutaway k = .chosen r) :
    s.placeable [k] (s.record k).size r = true := by
  unfold State.returnForPutaway at h
  split at h
  · split at h <;> cases h
    rename_i hp; exact hp.2
  · split at h <;> cases h
    rename_i hf; exact List.find?_some hf

/-- R48: the return pocket of the outgoing slot of a CALL is the one chosen for it. -/
theorem State.returnForCall_of_outgoing {i k : Slot} {src r : Nat} (h : s.outgoingForCall i src = .ok (some (k, r))) :
    s.returnForCall k i src = .chosen r := by
  unfold State.outgoingForCall at h
  split at h
  · split at h <;> cases h
    assumption
  · cases h

/-- R41–R48: what a CALL opens may be opened. -/
theorem State.TableSound.mayOpen_call (h : s.TableSound) {i : Slot} {p : Nat} {o : Option (Slot × Nat)}
    (source : (s.record i).location = .pocket p) (ho : s.outgoingForCall i p = .ok o) : s.MayOpen (.call i p o) := by
  have spindle (k r) (e : o = some (k, r)) : s.spindle = .holds k := (State.outgoingForCall_ok ho k).2 ⟨r, e⟩
  refine ⟨h.spindle.call_distinct source spindle, fun k q e => ?_, fun k r e => (h.spindle k).2 (spindle k r e),
    fun k r e => ⟨[k, i], ?_, ?_⟩⟩
  · cases e; exact source
  · replace e : o = some (k, r) := e
    subst e
    simp [Movement.named, Movement.incoming, Movement.outgoing]
  · replace e : o = some (k, r) := e
    subst e
    exact State.placeable_of_returnForCall (State.returnForCall_of_outgoing ho)

/-- R77: what a PUTAWAY opens may be opened. -/
theorem State.TableSound.mayOpen_putaway (h : s.TableSound) {k : Slot} {r : Nat} (spindle : s.spindle = .holds k)
    (hr : s.returnForPutaway k = .chosen r) : s.MayOpen (.putaway k r) := by
  refine ⟨List.nodup_singleton k, fun _ _ e => (nomatch e), fun j q e => ?_, fun j q e => ⟨[k], ?_, ?_⟩⟩ <;> cases e
  · exact (h.spindle k).2 spindle
  · exact List.Subset.refl _
  · exact State.placeable_of_returnForPutaway hr

/-- R41–R48, R78: a CALL keeps the places. -/
theorem State.PlacesSound.decideCall (h : s.PlacesSound) (hs : s.TableSound) (n : Nat) :
    (s.decideCall n).PlacesSound := by
  have answered (a) : (s.answer a).PlacesSound := h.congr rfl rfl rfl
  unfold State.decideCall
  split <;> [exact answered _; skip]
  split <;> [exact answered _; skip]
  split <;> try exact answered _
  rename_i k p hc
  split <;> [exact answered _; skip]
  rename_i o ho
  exact h.openExchange hs (hs.mayOpen_call (State.choose_candidate hc) ho)

/-- R77, R78: a PUTAWAY keeps the places. -/
theorem State.PlacesSound.decidePutaway (h : s.PlacesSound) (hs : s.TableSound) : s.decidePutaway.PlacesSound := by
  have answered (a) : (s.answer a).PlacesSound := h.congr rfl rfl rfl
  unfold State.decidePutaway
  split <;> [exact answered _; skip]
  split <;> try exact answered _
  · exact h
  rename_i k hk
  split <;> [exact answered _; skip]
  rename_i r hr
  exact h.openExchange hs (hs.mayOpen_putaway hk hr)

/-- R86, R88: a DONE keeps the places. -/
theorem State.PlacesSound.decideDone (h : s.PlacesSound) (hs : s.TableSound) (n : Nat) :
    (s.decideDone n).PlacesSound := by
  unfold State.decideDone
  split <;> [exact h.congr rfl rfl rfl; skip]
  split <;> [skip; exact h]
  rename_i x _ hx
  have hc := (h.completeMove hs (x := x) (by rw [hx]; rfl)).awaitCommits x.movement (.doneOk n)
  exact hc.congr rfl rfl rfl

/-- R87, R88: an ABANDON keeps the places. -/
theorem State.PlacesSound.decideAbandon (h : s.PlacesSound) (hs : s.TableSound) (n : Nat) :
    (s.decideAbandon n).PlacesSound := by
  unfold State.decideAbandon
  split <;> [exact h.congr rfl rfl rfl; skip]
  split <;> [skip; exact h]
  rename_i x _ hx
  have hc := (h.revert hs (x := x) (by rw [hx]; rfl)).awaitCommits x.movement (.abandoned n)
  exact hc.congr rfl rfl rfl

/-! ### The exchange apart from its decisions -/

/-- R55, R84: while an exchange is open a configuration is applied, for its pockets lie in the ring; so the timeout is
in range. -/
theorem State.PlacesSound.timeout_ranged (h : s.PlacesSound) {x : OpenExchange} (hx : s.exchange.open? = some x) :
    1 ≤ s.timeout ∧ s.timeout ≤ 255 := by
  obtain ⟨k, p, hp⟩ := x.movement.has_end
  obtain ⟨c, hc, -, -, low, high⟩ := h.array.config_of_pocket (h.lawful.inRing hx k p hp)
  simp only [State.timeout, hc]
  exact ⟨low, high⟩

/-- R84: the exchange that is taken in hand has the ends that it had, and a timer in range. -/
theorem State.PlacesSound.reportTake (h : s.PlacesSound) : s.reportTake.PlacesSound := by
  unfold State.reportTake
  split <;> [skip; exact h]
  rename_i x hx
  have hopen : s.exchange.open? = some x := by rw [hx]; rfl
  refine (State.placesSound_iff _).2 ⟨fun e he => h.lawful e ?_, h.record_within, h.array.congr rfl, fun y n hy => ?_⟩
  · rw [State.HasEnd, hopen]; exact he
  · cases hy; exact h.timeout_ranged hopen

/-- R82, R89: the answer of a store fault, with the revert that it makes of an OFFERED exchange. -/
theorem State.PlacesSound.replaceAnswer (h : s.PlacesSound) (hs : s.TableSound) (w : Withheld) (k : Slot) :
    (s.replaceAnswer w k).PlacesSound := by
  unfold State.replaceAnswer
  split
  · dsimp only
    split
    · rename_i x hx
      exact (h.revert hs (x := x) (by rw [hx]; rfl)).congr rfl rfl rfl
    · exact h.congr rfl rfl rfl
  · exact h.congr rfl rfl rfl
  · exact h.congr rfl rfl rfl

/-- R80, R82, R89: the release of a confirmation record keeps the places. -/
theorem State.PlacesSound.releaseRecord (h : s.PlacesSound) (hs : s.TableSound) : s.releaseRecord.PlacesSound := by
  unfold State.releaseRecord
  split <;> [skip; exact h]
  split <;> [exact h; skip]
  split <;> [exact h.replaceAnswer hs _ _; skip]
  split <;> [exact h.congr rfl rfl rfl; exact h]

/-- R90: the expiry of the exchange timer keeps the places. -/
theorem State.PlacesSound.expireTimer (h : s.PlacesSound) (hs : s.TableSound) : s.expireTimer.PlacesSound := by
  unfold State.expireTimer
  split <;> [skip; exact h]
  rename_i x _ hx
  split <;> [exact h; exact h.suspectExchange hs (by rw [hx]; rfl) _]

/-- R92: the effect of /RESET on the exchange keeps the places. -/
theorem State.PlacesSound.resetExchange (h : s.PlacesSound) (hs : s.TableSound) : s.resetExchange.PlacesSound := by
  have hp : ({ s with confirmation := none } : State).PlacesSound := h.congr rfl rfl rfl
  have ht : ({ s with confirmation := none } : State).TableSound := hs.congr rfl
  unfold State.resetExchange
  dsimp only
  split
  · exact hp
  · rename_i x hx; exact hp.revert ht (x := x) (congrArg _ hx)
  · rename_i x n hx; exact hp.suspectExchange ht (x := x) (congrArg _ hx) _
  · exact hp

/-! ### The Commit Engine and the supply -/

/-- R55: the defaults of a blank array are in range. -/
theorem Configuration.blank_ranged : Configuration.blank.ranged := by
  simp [Configuration.ranged, Configuration.blank, Config.blankPockets, Config.blankTimeout]

/-- R153: the flight that a start takes carries numbers in their ranges. -/
theorem State.PlacesSound.startFlight (h : s.PlacesSound) : s.startFlight.PlacesSound := by
  rcases s.startFlight_cases with e | ⟨x, c, -, -, -, e⟩ <;> rw [e]
  · exact h
  refine h.of_place_eq (fun _ => rfl) rfl rfl ⟨h.copies, h.ring, h.cfgCopies, fun f hf => ?_⟩
  cases hf
  cases x with
  | slot k => exact h.numbered k
  | cfg =>
    show (s.config.getD Configuration.blank).ranged
    cases hc : s.config with
    | none => exact Configuration.blank_ranged
    | some v => exact h.ring v hc

/-- R154, R155, R159: what a flight writes to the array is what it carries. -/
theorem State.ArrayRanged.writeTarget (h : s.ArrayRanged) {f : Flight} (hf : f.content.ranged) (v : Bool) :
    (∀ k : Slot, ((s.writeTarget f v).slotCopies[k]).satisfies Record.numbered) ∧
      (s.writeTarget f v).cfgCopies.satisfies Configuration.ranged := by
  cases hc : f.content with
  | slot j r st =>
    rw [hc] at hf
    obtain ⟨written, others⟩ := s.writeTarget_slotCopies f v j r st hc
    refine ⟨fun k => ?_, by rw [s.writeTarget_cfgCopies_slot v hc]; exact h.cfgCopies⟩
    by_cases e : k = j
    · subst e
      rw [written]
      refine CopyPair.satisfies_put (h.copies k) _ ?_
      cases v <;> [trivial; exact hf]
    · rw [others k e]; exact h.copies k
  | cfg c =>
    rw [hc] at hf
    refine ⟨by rw [s.writeTarget_slotCopies_cfg v hc]; exact h.copies, ?_⟩
    rw [s.writeTarget_cfgCopies v hc]
    refine CopyPair.satisfies_put h.cfgCopies _ ?_
    cases v <;> [trivial; exact hf]

/-- The array after a write of a flight's target, with no flight but one of the same content. -/
theorem State.ArrayRanged.of_writeTarget (h : s.ArrayRanged) {f : Flight} (hf : s.flight = some f) (v : Bool)
    (slots : t.slotCopies = (s.writeTarget f v).slotCopies) (cfg : t.cfgCopies = (s.writeTarget f v).cfgCopies)
    (config : t.config = s.config) (flight : ∀ g, t.flight = some g → g.content = f.content) : t.ArrayRanged := by
  have ranged := h.flight f hf
  obtain ⟨copies, cfgCopies⟩ := h.writeTarget ranged v
  exact ⟨by rw [slots]; exact copies, by rw [config]; exact h.ring, by rw [cfg]; exact cfgCopies,
    fun g hg => by rw [flight g hg]; exact ranged⟩

/-- R154–R156: the end of an attempt keeps the places. -/
theorem State.PlacesSound.endAttempt (h : s.PlacesSound) (v : Verify) : (s.endAttempt v).PlacesSound := by
  unfold State.endAttempt
  split <;> [exact h; skip]
  rename_i f hf
  split
  · exact h.of_place_eq (fun k => by rw [State.completeFlight_record]) (by simp) (by simp [State.pockets])
      (h.array.of_writeTarget hf true (s.completeFlight_slotCopies f) (s.completeFlight_cfgCopies f) (by simp)
        (by simp [State.completeFlight_flight]))
  · split
    · exact h.of_place_eq (fun k => congrArg Record.place (State.record_eq s _ (s.writeTarget_image f false) k))
        (by simp) (by simp [State.pockets])
        (h.array.of_writeTarget hf false rfl rfl (by simp) fun g hg => by cases hg; rfl)
    · exact h.of_place_eq (fun k => by rw [State.failFlight_record]) (by simp) (by simp [State.pockets])
        (h.array.of_writeTarget hf false (s.failFlight_slotCopies f) (s.failFlight_cfgCopies f) (by simp)
          (by simp [State.failFlight_flight]))

/-- R159: a flight that is abandoned keeps the places. -/
theorem State.PlacesSound.abandonFlight (h : s.PlacesSound) : s.abandonFlight.PlacesSound := by
  unfold State.abandonFlight
  split <;> [exact h; skip]
  rename_i f hf
  exact h.of_place_eq (fun k => congrArg Record.place (State.record_eq s _ (s.writeTarget_image f false) k)) (by simp)
    (by simp [State.pockets]) (h.array.of_writeTarget hf false rfl rfl (by simp) fun _ hg => nomatch hg)

/-- R56, R167: a part that holds nothing has lawful places, whatever ring is applied: no slot is in a pocket and no
exchange is open. -/
theorem State.EndsLawful.of_vacant (hr : ∀ k, s.record k = Record.vacant) (hx : s.exchange = .idle) : s.EndsLawful :=
  .of_idle hx (.of_none fun k => by rw [State.pocketNow, hr]; rfl)

/-- R1, R167: what is lost with the power leaves the places sound. -/
theorem State.PlacesSound.volatileCleared (h : s.PlacesSound) (op : OpState) (settle : Bool) :
    (s.volatileCleared op settle).PlacesSound := by
  have vacant := State.record_blank (s := s.volatileCleared op settle) rfl
  exact (State.placesSound_iff _).2 ⟨.of_vacant vacant rfl, fun k => by rw [vacant]; exact Record.vacant_within _,
    ⟨h.copies, fun _ hc => (nomatch hc), h.cfgCopies, fun _ hf => nomatch hf⟩,
    .of_not_reserved fun _ _ hx => nomatch hx⟩

/-- R163–R165: a rise of VCC keeps the places. -/
theorem State.PlacesSound.supplyRises (h : s.PlacesSound) : s.supplyRises.PlacesSound := by
  unfold State.supplyRises
  split
  · exact h.volatileCleared _ _
  · exact h.congr rfl rfl rfl
  · exact h
  · exact h
  · exact h.congr rfl rfl rfl

/-- R159, R165: a fall of VCC keeps the places. -/
theorem State.PlacesSound.supplyFalls (h : s.PlacesSound) : s.supplyFalls.PlacesSound := by
  unfold State.supplyFalls
  split
  · exact h
  · exact h.congr rfl rfl rfl
  · exact h.congr rfl rfl rfl
  · exact h.abandonFlight.congr rfl rfl rfl
  · exact h

/-- R167: the loss of power keeps the places. -/
theorem State.PlacesSound.losePower (h : s.PlacesSound) : s.losePower.PlacesSound := by
  have cleared := h.volatileCleared .off false
  unfold State.losePower
  split <;> [exact h; exact h; exact cleared; exact cleared; exact cleared]

/-- R166: the end of the settle interval keeps the places. -/
theorem State.PlacesSound.endSettle (h : s.PlacesSound) : s.endSettle.PlacesSound := by
  unfold State.endSettle
  split <;> [skip; exact h]
  split
  · exact State.PlacesSound.startFlight (h.congr rfl rfl rfl)
  · exact h.congr rfl rfl rfl

end

/-- Every operation but the scan keeps the table and the places together. -/
theorem keeps_placesSound : Keeps (fun s => s.TableSound ∧ s.PlacesSound) where
  pending s x h := ⟨keeps_tableSound.pending s x h.1, h.2.congr rfl rfl rfl⟩
  link s x h := ⟨keeps_tableSound.link s x h.1, h.2.congr rfl rfl rfl⟩
  lostAnswer s x h := ⟨keeps_tableSound.lostAnswer s x h.1, h.2.congr rfl rfl rfl⟩
  host s x h := ⟨keeps_tableSound.host s x h.1, h.2.congr rfl rfl rfl⟩
  resetLow s x h := ⟨keeps_tableSound.resetLow s x h.1, h.2.congr rfl rfl rfl⟩
  decideCall _ n h _ := ⟨h.1.decideCall n, h.2.decideCall h.1 n⟩
  decidePutaway _ h _ := ⟨h.1.decidePutaway, h.2.decidePutaway h.1⟩
  decideDone _ n h _ := ⟨h.1.decideDone n, h.2.decideDone h.1 n⟩
  decideAbandon _ n h _ := ⟨h.1.decideAbandon n, h.2.decideAbandon h.1 n⟩
  decideCharge _ n h _ := ⟨h.1.decideCharge n, h.2.decideCharge n⟩
  decideDamage _ h _ := ⟨h.1.decideDamage, h.2.decideDamage⟩
  reportTake _ h := ⟨h.1.reportTake, h.2.reportTake⟩
  releaseRecord _ h := ⟨h.1.releaseRecord, h.2.releaseRecord h.1⟩
  expireTimer _ h := ⟨h.1.expireTimer, h.2.expireTimer h.1⟩
  resetExchange _ h _ := ⟨h.1.resetExchange, h.2.resetExchange h.1⟩
  applyStore _ _ _ h _ _ hj := ⟨h.1.applyStore hj, h.2.applyStore h.1 hj⟩
  vacate _ _ h _ _ hl hn := ⟨h.1.vacate hl hn, h.2.vacate h.1 hn⟩
  completeMove _ x _ h _ hx :=
    have hopen := congrArg Exchange.open? hx
    ⟨h.1.completeMove (x := x) hopen, h.2.completeMove h.1 (x := x) hopen⟩
  revert _ x _ h _ hx :=
    have hopen := congrArg Exchange.open? hx
    ⟨h.1.revert (x := x) hopen, h.2.revert h.1 (x := x) hopen⟩
  spindleEmpty s h hr hc := ⟨keeps_tableSound.spindleEmpty s h.1 hr hc, h.2.congr rfl rfl rfl⟩
  retry _ k h _ _ := ⟨h.1.retry k, h.2.retry k⟩
  applyConfig s c h hr staged hc hx :=
    ⟨keeps_tableSound.applyConfig s c h.1 hr staged hc hx, h.2.applyConfig h.1 staged hc hx⟩
  hold _ _ _ h _ hk hv := ⟨h.1.hold hk hv, h.2.claim_in_place _ rfl⟩
  measure _ _ v h _ hk := ⟨h.1.measure v hk, h.2.claim_in_place _ rfl⟩
  setAttn _ k v h := ⟨h.1.setAttn k v, h.2.setAttn k v⟩
  startFlight _ h := ⟨h.1.startFlight, h.2.startFlight⟩
  endAttempt _ v h := ⟨h.1.endAttempt v, h.2.endAttempt v⟩
  supplyRises _ h := ⟨h.1.supplyRises, h.2.supplyRises⟩
  supplyFalls _ h := ⟨h.1.supplyFalls, h.2.supplyFalls⟩
  losePower _ h := ⟨h.1.losePower, h.2.losePower⟩
  endSettle _ h := ⟨h.1.endSettle, h.2.endSettle⟩

end Sys2Proof.Machine

namespace Sys2Proof.Machine

/-! ### What every examination of the scan keeps -/

/-- A property of the scan's work that a location repair, a repair that leaves the location and an attention mark
keep. -/
structure ScanInvariant (P : Nat) (I : ScanWork → Prop) : Prop where
  location : ∀ {w}, I w → ∀ k, I (w.repairLocation P k)
  inPlace : ∀ {w}, I w → ∀ k new c, new.location = (w.record k).location → I (w.repair k new c)
  mark : ∀ {w}, I w → ∀ k, I (w.mark k)

namespace ScanInvariant

variable {P : Nat} {I : ScanWork → Prop} {w : ScanWork}

theorem foldl {f : ScanWork → Slot → ScanWork} (step : ∀ {w}, I w → ∀ k, I (f w k)) :
    ∀ (l : List Slot) {w : ScanWork}, I w → I (l.foldl f w) := by
  intro l
  induction l with
  | nil => exact fun h => h
  | cons k l ih => exact fun h => ih (step h k)

theorem transit (h : ScanInvariant P I) (hw : I w) (k : Slot) : I (scanTransit P w k) := by
  unfold scanTransit
  split
  · split <;> [exact h.location hw k; exact hw]
  · split <;> [exact h.location hw k; exact hw]
  · exact hw

theorem beyond (h : ScanInvariant P I) (hw : I w) (k : Slot) : I (scanBeyond P w k) := by
  unfold scanBeyond
  split
  · split <;> [exact h.location hw k; exact hw]
  · split <;> [exact h.location hw k; exact hw]
  · exact hw

theorem shared (h : ScanInvariant P I) (hw : I w) (k : Slot) : I (scanShared P w k) := by
  unfold scanShared
  split <;> [skip; exact hw]
  split <;> [exact h.location hw k; exact hw]

theorem spindle (h : ScanInvariant P I) (hw : I w) (k : Slot) : I (scanSpindle P w k) := by
  unfold scanSpindle
  split <;> [skip; exact hw]
  split <;> [exact h.location hw k; exact hw]

theorem neighbour (h : ScanInvariant P I) (hw : I w) (k : Slot) (p q : Nat) : I (scanNeighbour P k p w q) := by
  unfold scanNeighbour
  split <;> [skip; exact hw]
  split <;> [skip; exact hw]
  split <;> exact h.location hw _

theorem large (h : ScanInvariant P I) (hw : I w) (k : Slot) : I (scanLarge P w k) := by
  unfold scanLarge
  split <;> [skip; exact hw]
  split <;> [exact h.neighbour (h.neighbour hw k _ _) k _ _; exact hw]

theorem home (h : ScanInvariant P I) (hw : I w) (k : Slot) : I (scanHome P w k) := by
  unfold scanHome
  split <;> [exact h.inPlace hw _ _ _ rfl; exact hw]

theorem duplicate (h : ScanInvariant P I) (hw : I w) (k : Slot) : I (scanDuplicate w k) := by
  unfold scanDuplicate
  split <;> [skip; exact hw]
  split <;> [exact h.mark hw _; exact h.inPlace hw _ _ _ rfl]

theorem seed (h : ScanInvariant P I) (hw : I w) (k : Slot) : I (scanSeed w k) := by
  unfold scanSeed
  split <;> [exact h.mark hw _; exact hw]

/-- R170–R172: what holds of the image as loaded holds of the image as scanned. -/
theorem scanRepairs (h : ScanInvariant P I) {image : Image} (hi : I ⟨image, []⟩) : I (scanRepairs P image) := by
  unfold Machine.scanRepairs
  exact foldl h.seed slots (foldl h.duplicate slots (foldl h.home slots (foldl h.large slots (foldl h.spindle slots
    (foldl h.shared slots (foldl h.beyond slots (foldl h.transit slots hi)))))))

end ScanInvariant

theorem ScanWork.repair_record_other (w : ScanWork) {j k : Slot} (hj : j ≠ k) (new : Record) (c : CommitClass) :
    (w.repair k new c).record j = w.record j := by
  show ((w.image.set k _)[j]).fields = _
  rw [ScanWork.image_set, if_neg hj]; rfl

theorem ScanWork.mark_record (w : ScanWork) (k j : Slot) : (w.mark k).record j = w.record j := by
  show ((w.image.set k _)[j]).fields = _
  rw [ScanWork.image_set]
  split
  · rename_i e; rw [e]; rfl
  · rfl

/-- R10, R170: a location repair keeps the pocket part, or drops it. -/
theorem keptPocket_part {P : Nat} {q : Option Nat} {p : Nat} (h : keptPocket P q = some p) : q = some p := by
  unfold keptPocket at h
  rw [Option.filter_eq_some_iff] at h
  exact h.1

/-- R10: the pocket numbers of the image as loaded stay from 1 on. -/
theorem scanInvariant_numbered (P : Nat) : ScanInvariant P (fun w => ∀ k, (w.record k).numbered) where
  location {w} h k j := by
    by_cases e : j = k
    · subst e
      rw [ScanWork.repairLocation, ScanWork.repair_record]
      exact fun p hp => h j p (keptPocket_part hp)
    · rw [ScanWork.repairLocation, ScanWork.repair_record_other _ e]; exact h j
  inPlace {w} h k new c hl j := by
    by_cases e : j = k
    · subst e
      rw [ScanWork.repair_record, Record.numbered, hl]; exact h j
    · rw [ScanWork.repair_record_other _ e]; exact h j
  mark {w} h k j := by rw [ScanWork.mark_record]; exact h j

/-! ### What the passes establish -/

/-- R170, pass 2: no pocket that the tool stands in, or that its UNKNOWN location names, lies beyond the ring. -/
def ScanWork.InRing (P : Nat) (k : Slot) (w : ScanWork) : Prop :=
  (w.record k).occupied = true → ∀ p, (w.record k).location = .pocket p ∨ (w.record k).location = .unknown (some p) →
    p ≤ P

/-- R170, pass 3: the tool stands in no pocket of a lower one. -/
def ScanWork.AloneInPocket (k : Slot) (w : ScanWork) : Prop :=
  (w.record k).occupied = true → ∀ p, (w.record k).location = .pocket p →
    ∀ j, j < k → (w.record j).occupied = true → (w.record j).location ≠ .pocket p

/-- R170, pass 5: a LARGE tool in a pocket has no other tool in a ring neighbour of it. -/
def ScanWork.RoomBeside (P : Nat) (k : Slot) (w : ScanWork) : Prop :=
  (w.record k).occupied = true → (w.record k).size = .large → ∀ p, (w.record k).location = .pocket p →
    ∀ j, j ≠ k → (w.record j).occupied = true →
      (w.record j).location ≠ .pocket (ringBefore P p) ∧ (w.record j).location ≠ .pocket (ringAfter P p)

/-- R171, field repair 1: the home pocket of the tool lies in the ring. -/
def ScanWork.HomeInRing (P : Nat) (k : Slot) (w : ScanWork) : Prop :=
  (w.record k).occupied = true → (w.record k).home ≤ P

section
variable {P : Nat} {w w' : ScanWork} {k : Slot}

theorem ScanStep.inRing (h : ScanStep P w w') (hk : w.InRing P k) : w'.InRing P k := by
  intro ho p hp
  rw [h.occupied] at ho
  rcases (h k).location with same | ⟨q, unknown, le⟩
  · exact hk ho p (by rwa [show (w'.record k).location = (w.record k).location from same] at hp)
  · rw [show (w'.record k).location = .unknown q from unknown] at hp
    rcases hp with e | e <;> cases e
    exact le p rfl

theorem ScanStep.aloneInPocket (h : ScanStep P w w') (hk : w.AloneInPocket k) : w'.AloneInPocket k := by
  intro ho p hp j hj hoj e
  rw [h.occupied] at ho hoj
  exact hk ho p (h.location_of rfl hp) j hj hoj (h.location_of rfl e)

theorem ScanStep.roomBeside (h : ScanStep P w w') (hk : w.RoomBeside P k) : w'.RoomBeside P k := by
  intro ho hl p hp j hj hoj
  rw [h.occupied] at ho hoj
  rw [show (w'.record k).size = (w.record k).size from (h k).size] at hl
  obtain ⟨before, after⟩ := hk ho hl p (h.location_of rfl hp) j hj hoj
  exact ⟨fun e => before (h.location_of rfl e), fun e => after (h.location_of rfl e)⟩

theorem ScanStep.homeInRing (h : ScanStep P w w') (hk : w.HomeInRing P k) : w'.HomeInRing P k := by
  intro ho
  rw [h.occupied] at ho
  rcases (h k).home with e | e
  · rw [show (w'.record k).home = (w.record k).home from e]; exact hk ho
  · rw [show (w'.record k).home = 0 from e]; exact Nat.zero_le P

/-- After a location repair the slot stands in no pocket. -/
theorem ScanWork.repairLocation_location (w : ScanWork) (P : Nat) (k : Slot) :
    ((w.repairLocation P k).record k).location = .unknown (keptPocket P (w.record k).location.pocketPart) := by
  rw [ScanWork.repairLocation, ScanWork.repair_record]

theorem scanBeyond_inRing (P : Nat) (w : ScanWork) (k : Slot) : (scanBeyond P w k).InRing P k := by
  have repaired : (w.repairLocation P k).InRing P k := by
    intro _ p hp
    rw [ScanWork.repairLocation_location] at hp
    rcases hp with e | e
    · cases e
    · exact keptPocket_le _ _ _ (Location.unknown.inj e)
  have within {q} (hq : ∀ p, (w.record k).location = .pocket p ∨ (w.record k).location = .unknown (some p) → p = q)
      (hc : ¬ ((w.record k).occupied && decide (P < q)) = true) : w.InRing P k := by
    intro ho p hp
    rw [hq p hp]
    simpa [ho] using hc
  unfold scanBeyond
  split
  · rename_i q hl
    split <;> [exact repaired; exact within (q := q) (by simp [hl, eq_comm]) (by assumption)]
  · rename_i q hl
    split <;> [exact repaired; exact within (q := q) (by simp [hl, eq_comm]) (by assumption)]
  · rename_i no_pocket no_unknown
    exact fun _ p hp => (hp.elim (no_pocket p) (no_unknown p)).elim

theorem scanShared_alone (P : Nat) (w : ScanWork) (k : Slot) : (scanShared P w k).AloneInPocket k := by
  unfold scanShared
  split
  · rename_i q hl
    split
    · intro _ p hp
      rw [ScanWork.repairLocation_location] at hp
      cases hp
    · rename_i hc
      intro ho p hp j hj hoj e
      exact hc (by rw [Bool.and_eq_true, ScanWork.sharedBelow_iff]; exact ⟨ho, j, hj, hoj, e.trans hp.symm⟩)
  · rename_i no_pocket
    exact fun _ p hp => absurd hp (no_pocket p)

theorem scanHome_inRing (P : Nat) (w : ScanWork) (k : Slot) : (scanHome P w k).HomeInRing P k := by
  unfold scanHome
  split
  · intro _; rw [ScanWork.repair_record]; exact Nat.zero_le P
  · rename_i hc
    intro ho
    simpa [ho] using hc

/-- R56: two tools that stand alone in one pocket are one. -/
theorem ScanWork.one_in_pocket (h : ∀ k, w.AloneInPocket k) {i j : Slot} {p : Nat}
    (hi : (w.record i).occupied = true) (hj : (w.record j).occupied = true) (li : (w.record i).location = .pocket p)
    (lj : (w.record j).location = .pocket p) : i = j := by
  rcases lt_trichotomy i j with e | e | e
  · exact absurd li (h j hj p lj i e hi)
  · exact e
  · exact absurd lj (h i hi p li j e hj)

/-- R170, pass 5: the examination of a neighbour pocket leaves no other tool in it while the LARGE slot holds its
own. -/
theorem scanNeighbour_clears (h : ∀ k, w.AloneInPocket k) {p q : Nat}
    (hk : ((scanNeighbour P k p w q).record k).location = .pocket p) {j : Slot} (hj : j ≠ k)
    (hoj : ((scanNeighbour P k p w q).record j).occupied = true) :
    ((scanNeighbour P k p w q).record j).location ≠ .pocket q := by
  unfold scanNeighbour at hk hoj ⊢
  by_cases hl : (w.record k).location = .pocket p
  · rw [if_pos hl] at hk hoj ⊢
    obtain ⟨spec_none, spec_some⟩ := w.holderOf_spec k q
    cases hh : w.holderOf k q with
    | none =>
      rw [hh] at hoj
      exact spec_none.1 hh j hj hoj
    | some n =>
      obtain ⟨-, tool, stands⟩ := spec_some n hh
      simp only [hh] at hk hoj ⊢
      split at hk
      · rename_i lt
        rw [if_pos lt] at hoj ⊢
        by_cases e : j = n
        · subst e; rw [ScanWork.repairLocation_location]; simp
        · rw [ScanWork.repairLocation, ScanWork.repair_record_other _ e] at hoj ⊢
          exact fun stands' => e (ScanWork.one_in_pocket h hoj tool stands' stands)
      · rw [ScanWork.repairLocation_location] at hk; cases hk
  · rw [if_neg hl] at hk; exact absurd hk hl

theorem scanLarge_roomBeside (h : ∀ k, w.AloneInPocket k) (k : Slot) : (scanLarge P w k).RoomBeside P k := by
  have step := scanLarge_step P w k
  intro ho hl p hp j hj hoj
  have stood := step.location_of rfl hp
  have large : (w.record k).size = .large := (step k).size.symm.trans hl
  have tool : (w.record k).occupied = true := by rwa [step.occupied] at ho
  have two : scanLarge P w k = scanNeighbour P k p (scanNeighbour P k p w (ringBefore P p)) (ringAfter P p) := by
    simp [scanLarge, stood, tool, large]
  have first := scanNeighbour_step P k p w (ringBefore P p) tool
  rw [two] at hp hoj ⊢
  have second := scanNeighbour_step P k p (scanNeighbour P k p w (ringBefore P p)) (ringAfter P p)
    (by rwa [first.occupied])
  refine ⟨fun e => ?_, scanNeighbour_clears (fun i => first.aloneInPocket (h i)) hp hj hoj⟩
  exact scanNeighbour_clears h (second.location_of rfl hp) hj (by rwa [second.occupied] at hoj)
    (second.location_of rfl e)

/-- What each examination of the fifth pass establishes of its slot, the pass leaves true of every slot. -/
theorem scanLarge_pass (h : ∀ k, w.AloneInPocket k) (k : Slot) : (slots.foldl (scanLarge P) w).RoomBeside P k := by
  suffices ∀ (l : List Slot) (w : ScanWork), (∀ k, w.AloneInPocket k) → k ∈ l →
      (l.foldl (scanLarge P) w).RoomBeside P k from this slots w h (mem_slots k)
  intro l
  induction l with
  | nil => intro w _ hk; cases hk
  | cons j l ih =>
    intro w alone hk
    rw [List.foldl_cons]
    rcases List.mem_cons.1 hk with rfl | hk
    · exact (ScanStep.foldl _ (scanLarge_step P) l _).roomBeside (scanLarge_roomBeside alone k)
    · exact ih _ (fun i => (scanLarge_step P w j).aloneInPocket (alone i)) hk

end

/-! ### The image after the scan -/

section
variable {P : Nat} (w : ScanWork)

theorem ScanStep.after_home : ScanStep P w (slots.foldl scanSeed (slots.foldl scanDuplicate w)) :=
  (ScanStep.foldl _ (scanDuplicate_step P) _ _).trans (ScanStep.foldl _ (scanSeed_step P) _ _)

theorem ScanStep.after_large :
    ScanStep P w (slots.foldl scanSeed (slots.foldl scanDuplicate (slots.foldl (scanHome P) w))) :=
  (ScanStep.foldl _ (scanHome_step P) _ _).trans (.after_home _)

theorem ScanStep.after_shared : ScanStep P w (slots.foldl scanSeed (slots.foldl scanDuplicate
    (slots.foldl (scanHome P) (slots.foldl (scanLarge P) (slots.foldl (scanSpindle P) w))))) :=
  (ScanStep.foldl _ (scanSpindle_step P) _ _).trans ((ScanStep.foldl _ (scanLarge_step P) _ _).trans (.after_large _))

theorem ScanStep.after_beyond : ScanStep P w (slots.foldl scanSeed (slots.foldl scanDuplicate
    (slots.foldl (scanHome P) (slots.foldl (scanLarge P) (slots.foldl (scanSpindle P)
      (slots.foldl (scanShared P) w)))))) :=
  (ScanStep.foldl _ (scanShared_step P) _ _).trans (.after_shared _)

end

section
variable (P : Nat) (image : Image) (k : Slot)

/-- R170: no tool names a pocket beyond the ring after the scan. -/
theorem scanRepairs_inRing : (scanRepairs P image).InRing P k := by
  unfold scanRepairs
  exact (ScanStep.after_beyond _).inRing
    (scanPass_establishes (E := ScanWork.InRing P) (scanBeyond_step P) ScanStep.inRing (scanBeyond_inRing P) _ k)

/-- R56, R170: at most one tool is in a pocket after the scan. -/
theorem scanRepairs_aloneInPocket : (scanRepairs P image).AloneInPocket k := by
  unfold scanRepairs
  exact (ScanStep.after_shared (P := P) _).aloneInPocket
    (scanPass_establishes (E := ScanWork.AloneInPocket) (scanShared_step P) ScanStep.aloneInPocket (scanShared_alone P)
      _ k)

/-- R64, R170: no tool is beside a LARGE one after the scan. -/
theorem scanRepairs_roomBeside : (scanRepairs P image).RoomBeside P k := by
  unfold scanRepairs
  refine (ScanStep.after_large _).roomBeside (scanLarge_pass (fun i => ?_) k)
  exact (ScanStep.foldl _ (scanSpindle_step P) _ _).aloneInPocket
    (scanPass_establishes (E := ScanWork.AloneInPocket) (scanShared_step P) ScanStep.aloneInPocket (scanShared_alone P)
      _ i)

/-- R171: no home pocket lies beyond the ring after the scan. -/
theorem scanRepairs_homeInRing : (scanRepairs P image).HomeInRing P k := by
  unfold scanRepairs
  exact (ScanStep.after_home _).homeInRing
    (scanPass_establishes (E := ScanWork.HomeInRing P) (scanHome_step P) ScanStep.homeInRing (scanHome_inRing P) _ k)

end

/-! ### The completion of the scan -/

/-- R169: the scan loads pocket numbers from 1 on from copies that have such. -/
theorem loadSlot_numbered {c : CopyPair Record} (h : c.satisfies Record.numbered) : (loadSlot c).fields.numbered := by
  unfold loadSlot
  split
  · rename_i e; exact CopyPair.newestValid_satisfies h e
  · split <;> exact fun _ hp => nomatch hp

/-- R55, R169: the scan loads a configuration in its ranges. -/
theorem loadConfig_ranged {c : CopyPair Configuration} (h : c.satisfies Configuration.ranged) :
    (loadConfig c).1.ranged := by
  unfold loadConfig
  split
  · rename_i e; exact CopyPair.newestValid_satisfies h e
  · exact Configuration.blank_ranged

section
variable {s : State}

theorem State.enterScan_config (s : State) : s.enterScan.config = some (loadConfig s.cfgCopies).1 := by
  obtain ⟨repairs, e⟩ : ∃ f, f = scanRepairs := ⟨_, rfl⟩
  rewrite [State.enterScan, ← e]
  rfl

theorem State.enterScan_pockets (s : State) : s.enterScan.pockets = (loadConfig s.cfgCopies).1.pockets :=
  State.pockets_of_config s.enterScan_config

/-- R10, R169–R171: the pocket numbers of the scanned image. -/
theorem State.ArrayRanged.scanWork_numbered (h : s.ArrayRanged) (k : Slot) : (s.scanWork.record k).numbered :=
  (scanInvariant_numbered _).scanRepairs (image := s.loadedImage)
    (fun k => by rw [ScanWork.record, s.loadedImage_slot]; exact loadSlot_numbered (h.copies k)) k

theorem State.scanWork_inRing (s : State) (k : Slot) : s.scanWork.InRing s.enterScan.pockets k := by
  rw [s.enterScan_pockets]; exact scanRepairs_inRing _ _ k

theorem State.scanWork_homeInRing (s : State) (k : Slot) : s.scanWork.HomeInRing s.enterScan.pockets k := by
  rw [s.enterScan_pockets]; exact scanRepairs_homeInRing _ _ k

theorem State.scanWork_roomBeside (s : State) (k : Slot) : s.scanWork.RoomBeside s.enterScan.pockets k := by
  rw [s.enterScan_pockets]; exact scanRepairs_roomBeside _ _ k

theorem State.scanWork_aloneInPocket (s : State) (k : Slot) : s.scanWork.AloneInPocket k :=
  scanRepairs_aloneInPocket _ _ k

/-- R170, R171: every record of the scanned image lies within the ring. -/
theorem State.PlacesSound.enterScan_within (h : s.PlacesSound) (hs : s.TableSound) (k : Slot) :
    (s.enterScan.record k).Within s.enterScan.pockets := by
  by_cases hv : (s.enterScan.record k).condition = .vacant
  · rw [(hs.enterScan.records.image k).2.1 hv]; exact Record.vacant_within _
  have tool := (Record.occupied_iff _).2 hv
  rw [s.enterScan_record] at tool ⊢
  refine ⟨s.scanWork_homeInRing k tool, fun p hp => ⟨h.array.scanWork_numbered k p hp, ?_⟩⟩
  have rests := s.scanWork_rests k tool p
  refine s.scanWork_inRing k tool p ?_
  rcases (Location.pocketPart_iff _ p).1 hp with e | (e | e) | e
  · exact .inl e
  · exact absurd e rests.1
  · exact absurd e rests.2
  · exact .inr e

/-- R56, R64, R170: the places after the scan are lawful. -/
theorem State.PlacesSound.enterScan_lawful (h : s.PlacesSound) (hs : s.TableSound) :
    Lawful s.enterScan.pockets (fun k => (s.enterScan.record k).size) s.enterScan.pocketNow := by
  have stands {k p} (hk : s.enterScan.pocketNow k = some p) :
      (s.scanWork.record k).occupied = true ∧ (s.scanWork.record k).location = .pocket p := by
    rw [State.pocketNow_eq_some] at hk
    have tool := hs.enterScan.tool_of_pocketPart (p := p) (by rw [hk]; rfl)
    rw [s.enterScan_record] at hk tool
    exact ⟨(Record.occupied_iff _).2 tool, hk⟩
  have two : 2 ≤ s.enterScan.pockets := by
    rw [s.enterScan_pockets]; exact le_trans (by decide) (loadConfig_ranged h.cfgCopies).1
  refine .of_apart two (fun j k p hj hk => ?_) (fun k p hk => ?_) fun j k p q other hj hl hk => ?_
  · obtain ⟨tool_j, at_j⟩ := stands hj
    obtain ⟨tool_k, at_k⟩ := stands hk
    exact ScanWork.one_in_pocket s.scanWork_aloneInPocket tool_j tool_k at_j at_k
  · exact (h.enterScan_within hs k).2 p (by rw [(State.pocketNow_eq_some _ k p).1 hk]; rfl)
  · obtain ⟨tool_j, at_j⟩ := stands hj
    obtain ⟨tool_k, at_k⟩ := stands hk
    rw [s.enterScan_record] at hl
    obtain ⟨before, after⟩ := s.scanWork_roomBeside j tool_j hl p at_j k other tool_k
    exact ⟨fun e => before (e ▸ at_k), fun e => after (e ▸ at_k)⟩

/-- R168–R174: the completion of a scan establishes the places from copies whose numbers are in range. -/
theorem State.PlacesSound.enterScan (h : s.PlacesSound) (hs : s.TableSound) : s.enterScan.PlacesSound := by
  refine (State.placesSound_iff _).2 ⟨.of_idle rfl (h.enterScan_lawful hs), h.enterScan_within hs,
    ⟨h.copies, fun c hc => ?_, h.cfgCopies, fun _ hf => nomatch hf⟩, .of_not_reserved fun _ _ hx => nomatch hx⟩
  rw [s.enterScan_config] at hc
  cases hc
  exact loadConfig_ranged h.cfgCopies

/-- R168: the step in which the scan completes keeps the places. -/
theorem State.PlacesSound.completeScan (h : s.PlacesSound) (hs : s.TableSound) : s.completeScan.PlacesSound := by
  unfold State.completeScan
  split <;> [exact (h.enterScan hs).startFlight; exact h]

end

/-- Settles O59: every operation keeps the places of a sound table, and the scan establishes them from the copies. -/
theorem stepKeepsThePlaces : Obligations.StepKeepsThePlaces := fun s t hs h he =>
  (keeps_placesSound.step s t ⟨hs, h⟩ (fun _ _ hu => ⟨hu.1.completeScan, hu.2.completeScan hu.1⟩) he).2

end Sys2Proof.Machine

/-! ## Durable answers wait for their commits (O33) -/

namespace Sys2Proof.Machine

/-! ### The answers that wait for commits -/

/-- R80: the answers that a confirmation record withholds. -/
def Answer.durable : Answer → Bool
  | .tag _ _ => true
  | .doneOk _ => true
  | .abandoned _ => true
  | _ => false

theorem Answer.durable_iff (a : Answer) : a.durable = true ↔
    (∃ tag p, a = .tag tag p) ∨ (∃ tag, a = .doneOk tag) ∨ (∃ tag, a = .abandoned tag) := by
  cases a <;> simp [Answer.durable]

/-- R43, R77: step 3 of CALL and PUTAWAY answers by EXCHANGE_OPEN or SUSPECT. -/
theorem Exchange.refusal_not_durable {e : Exchange} {a : Answer} (h : e.refusal = some a) : a.durable = false := by
  cases e <;> simp only [Exchange.refusal, Option.some.injEq, reduceCtorEq] at h <;> rw [← h] <;> rfl

/-- R88: a refused DONE or ABANDON is answered by NO_EXCHANGE, BAD_TAG or TOO_LATE. -/
theorem Exchange.tagRefusal_not_durable {e : Exchange} {tag : Nat} {a : Answer} (h : e.tagRefusal tag = some a) :
    a.durable = false := by
  unfold Exchange.tagRefusal at h
  (repeat' split at h) <;> cases h <;> rfl

/-- R107: the link's own answers are NOT_READY and POWER_LOW. -/
theorem OpState.linkAnswer_not_durable {o : OpState} {a : Answer} (h : o.linkAnswer = some a) : a.durable = false := by
  cases o <;> cases h <;> rfl

theorem Record.chargeAnswer_not_durable (r : Record) : r.chargeAnswer.durable = false := by
  unfold Record.chargeAnswer; split <;> rfl

theorem State.probeSpindle_not_durable (s : State) : s.probeSpindle.durable = false := by
  unfold State.probeSpindle; split <;> rfl

theorem State.probeTool_not_durable (s : State) (n : Nat) : (s.probeTool n).durable = false := by
  unfold State.probeTool; (repeat' split) <;> rfl

theorem State.openingWord_not_durable (s : State) (m : Movement) : (s.openingWord m).durable = false := by
  unfold State.openingWord; (repeat' split) <;> rfl

/-! ### What the part has promised -/

/-- The word positions of the link with the confirmation record: what durable answers and marks are read from. -/
def State.promises (s : State) : List (Option Answer) × Option Confirmation := (s.link.answers, s.confirmation)

/-- R81: the mark of slot `k` is set. -/
def State.Marked (s : State) (k : Slot) : Prop := ∃ r, s.confirmation = some r ∧ (k, true) ∈ r.waiting

/-- From `s` to `t` no durable answer comes into the answer sequence, and no slot is marked. -/
structure State.Quiet (s t : State) : Prop where
  answers : ∀ a, a.durable = true → some a ∈ t.link.answers → some a ∈ s.link.answers
  marks : ∀ k, t.Marked k → s.Marked k

section
variable {s t u : State}

theorem State.Quiet.trans (h : s.Quiet t) (h' : t.Quiet u) : s.Quiet u :=
  ⟨fun a ha hm => h.answers a ha (h'.answers a ha hm), fun k hk => h.marks k (h'.marks k hk)⟩

theorem State.Quiet.of_eq (h : t.promises = s.promises) : s.Quiet t := by
  obtain ⟨answers, record⟩ := Prod.mk.inj h
  exact ⟨fun a _ hm => answers ▸ hm, fun k ⟨r, hr, hk⟩ => ⟨r, record ▸ hr, hk⟩⟩

theorem State.Quiet.refl (s : State) : s.Quiet s := .of_eq rfl

/-- A sequence without a durable answer, under a record without a mark, is quiet after every state. -/
theorem State.Quiet.of_plain (ha : ∀ a, some a ∈ t.link.answers → a.durable = false) (hk : ∀ k, ¬ t.Marked k) :
    s.Quiet t :=
  ⟨fun a hd hm => absurd hd (by simp [ha a hm]), fun k h => absurd h (hk k)⟩

/-- R98, R102: a request answered by one word that no record withholds. -/
theorem State.Quiet.answer {a : Answer} (ha : a.durable = false) : s.Quiet (s.answer a) :=
  ⟨fun b hb hm => by
    rw [State.answer_link, Link.answer_answers, List.mem_singleton, Option.some.injEq] at hm
    exact absurd hb (by simp [hm, ha]), fun _ hk => hk⟩

/-! ### The decisions of the link's requests -/

/-- R80: a new confirmation record has no mark. -/
theorem State.awaitCommits_not_marked (s : State) (m : Movement) (w : Withheld) (k : Slot) :
    ¬ (s.awaitCommits m w).Marked k := by
  rintro ⟨r, hr, hk⟩
  obtain rfl := Option.some.inj hr
  simp at hk

/-- R79, R80: an open presents its first word, withholds the TAG and marks nothing. -/
theorem State.openExchange_quiet (s : State) (m : Movement) : s.Quiet (s.openExchange m) := by
  refine .of_plain (fun a ha => ?_) fun k => State.awaitCommits_not_marked _ _ _ k
  have hm : some a ∈ [some (s.openingWord m), none] := by
    simpa only [State.openExchange, State.awaitCommits_link, Link.answerOpening] using ha
  simp only [List.mem_cons, Option.some.injEq, reduceCtorEq, List.not_mem_nil, or_false] at hm
  rw [hm]; exact s.openingWord_not_durable m

/-- R80, R102: a DONE or ABANDON that is taken: its record, and its answer withheld at the single position. -/
def State.withhold (s : State) (m : Movement) (w : Withheld) : State :=
  (s.awaitCommits m w).setLink (s.awaitCommits m w).link.withhold

theorem State.withhold_quiet (s t : State) (m : Movement) (w : Withheld) : s.Quiet (t.withhold m w) :=
  .of_plain (fun a ha => by simp [State.withhold, Link.withhold] at ha) fun k => State.awaitCommits_not_marked t m w k

theorem State.decideCall_quiet (s : State) (n : Nat) : s.Quiet (s.decideCall n) := by
  unfold State.decideCall
  split
  · rename_i h; exact .answer (Exchange.refusal_not_durable h)
  · split <;> [exact .answer rfl; skip]
    split <;> [exact .answer rfl; exact .answer rfl; exact .answer rfl; exact .answer rfl; skip]
    split <;> [exact .answer rfl; exact s.openExchange_quiet _]

theorem State.decidePutaway_quiet (s : State) : s.Quiet s.decidePutaway := by
  unfold State.decidePutaway
  split
  · rename_i h; exact .answer (Exchange.refusal_not_durable h)
  · split <;> [exact .answer rfl; exact .answer rfl; exact .refl s; skip]
    split <;> [exact .answer rfl; exact s.openExchange_quiet _]

theorem State.decideDone_quiet (s : State) (n : Nat) : s.Quiet (s.decideDone n) := by
  unfold State.decideDone
  split
  · rename_i h; exact .answer (Exchange.tagRefusal_not_durable h)
  · split <;> [exact s.withhold_quiet _ _ _; exact .refl s]

theorem State.decideAbandon_quiet (s : State) (n : Nat) : s.Quiet (s.decideAbandon n) := by
  unfold State.decideAbandon
  split
  · rename_i h; exact .answer (Exchange.tagRefusal_not_durable h)
  · split <;> [exact s.withhold_quiet _ _ _; exact .refl s]

theorem State.claim_promises (s : State) (k : Slot) (new : Record) (c : CommitClass) :
    (s.claim k new c).promises = s.promises := by simp [State.promises]

theorem State.decideCharge_quiet (s : State) (n : Nat) : s.Quiet (s.decideCharge n) := by
  unfold State.decideCharge
  split <;> [exact .answer rfl; exact .answer rfl; exact .answer rfl; skip]
  exact (State.Quiet.of_eq (s.claim_promises _ _ _)).trans (.answer (Record.chargeAnswer_not_durable _))

theorem State.decideDamage_quiet (s : State) : s.Quiet s.decideDamage := by
  unfold State.decideDamage
  split <;> [exact .answer rfl; exact .answer rfl; exact .answer rfl; skip]
  exact (State.Quiet.of_eq (s.claim_promises _ _ _)).trans (.answer rfl)

theorem State.decideProbe_quiet (s : State) (n : Nat) : s.Quiet (s.decideProbe n) := by
  refine .answer ?_
  split <;> [exact s.probeSpindle_not_durable; exact s.probeTool_not_durable n]

theorem State.decideRequest_quiet (s : State) (kind : BitVec 4) (operand : BitVec 12) :
    s.Quiet (s.decideRequest kind operand) := by
  unfold State.decideRequest
  split
  · exact s.decideCall_quiet _
  · exact s.decideDone_quiet _
  · exact s.decideAbandon_quiet _
  · exact s.decideCharge_quiet _
  · exact s.decideDamage_quiet
  · exact s.decidePutaway_quiet
  · exact s.decideProbe_quiet _
  · exact .refl s

/-- R98, R100: the latch is quiet when the decision that it hands the word to is. -/
theorem State.latchRequest_quiet {d : State → State} (hd : ∀ u : State, u.Quiet (d u)) (s : State) (kind : BitVec 4)
    (operand : BitVec 12) (take : Timing) : s.Quiet (s.latchRequest kind operand take d) := by
  have latched (l : Link) (hl : l.answers = s.link.answers) : s.Quiet (s.setLink l) :=
    .of_eq (Prod.ext hl rfl)
  have answered (l : Link) (a : Answer) (hl : l.answers = s.link.answers) (ha : a.durable = false) :
      s.Quiet (s.setLink (l.answer a)) := (latched l hl).trans (State.Quiet.answer (s := s.setLink l) ha)
  unfold State.latchRequest
  dsimp only
  split <;> [skip; exact .refl s]
  split
  · rename_i h
    exact answered _ _ rfl (OpState.linkAnswer_not_durable h)
  · split
    · split
      · refine .trans ?_ (hd _); exact latched _ rfl
      · exact latched _ rfl
    · exact answered _ _ rfl rfl

theorem State.takeHandedOn_quiet (s : State) : s.Quiet s.takeHandedOn := by
  unfold State.takeHandedOn
  split <;> [skip; exact .refl s]
  split <;> [skip; exact .refl s]
  split <;> [exact .answer rfl; exact s.decideRequest_quiet _ _]

/-! ### The edges, the exchange and the supply -/

theorem State.rqstbLeading_promises (s : State) : s.rqstbLeading.promises = s.promises := by
  unfold State.rqstbLeading; (repeat' split) <;> rfl

theorem State.antakeLeading_promises (s : State) : s.antakeLeading.promises = s.promises := by
  unfold State.antakeLeading; (repeat' split) <;> rfl

theorem State.reportTake_promises (s : State) : s.reportTake.promises = s.promises := by
  unfold State.reportTake; split <;> rfl

/-- R104: a take leaves the words as they stand, or ends the sequence. -/
theorem Link.takeWord_answers (l : Link) : l.takeWord.answers = l.answers ∨ l.takeWord.answers = [] := by
  unfold Link.takeWord; split <;> simp

theorem State.takeAnswer_quiet (s : State) : s.Quiet s.takeAnswer := by
  have taken : s.Quiet (s.setLink s.link.takeWord) := by
    refine ⟨fun a _ hm => ?_, fun _ hk => hk⟩
    rw [State.setLink_link] at hm
    rcases s.link.takeWord_answers with e | e <;> rw [e] at hm
    · exact hm
    · cases hm
  unfold State.takeAnswer
  dsimp only
  split <;> [skip; exact .refl s]
  split <;> [exact taken.trans (.of_eq (State.reportTake_promises _)); exact taken]

theorem State.expireTimer_promises (s : State) : s.expireTimer.promises = s.promises := by
  unfold State.expireTimer; (repeat' split) <;> simp [State.promises]

/-- R92, R111: /RESET empties the answer sequence and discards the record. -/
theorem State.assertReset_quiet (s : State) : s.Quiet s.assertReset := by
  have discarded : s.resetExchange.confirmation = none := by
    unfold State.resetExchange; split <;> simp
  unfold State.assertReset
  split <;> [exact .refl s; skip]
  split <;> [exact .of_eq rfl; skip]
  refine .of_plain (fun a ha => nomatch ha) ?_
  rintro k ⟨r, hr, -⟩
  have none : s.resetExchange.confirmation = some r := hr
  rw [discarded] at none; cases none

theorem State.volatileCleared_quiet (s : State) (op : OpState) (settle : Bool) :
    s.Quiet (s.volatileCleared op settle) :=
  .of_plain (fun _ ha => nomatch ha) fun _ ⟨_, hr, _⟩ => nomatch hr

theorem State.startFlight_promises (s : State) : s.startFlight.promises = s.promises := by simp [State.promises]

theorem State.supplyRises_quiet (s : State) : s.Quiet s.supplyRises := by
  unfold State.supplyRises
  split <;> [exact s.volatileCleared_quiet _ _; exact .of_eq rfl; exact .refl s; exact .refl s; exact .of_eq rfl]

theorem State.supplyFalls_quiet (s : State) : s.Quiet s.supplyFalls := by
  have frozen : s.freeze.promises = s.promises := by simp [State.freeze, State.promises]
  unfold State.supplyFalls
  split <;> [exact .refl s; exact .of_eq rfl; exact .of_eq rfl; exact .of_eq frozen; exact .refl s]

theorem State.losePower_quiet (s : State) : s.Quiet s.losePower := by
  unfold State.losePower
  split <;> [exact .refl s; exact .refl s; skip; skip; skip] <;> exact s.volatileCleared_quiet _ _

theorem State.endSettle_quiet (s : State) : s.Quiet s.endSettle := by
  unfold State.endSettle
  split <;> [skip; exact .refl s]
  split <;> [exact .of_eq (State.startFlight_promises _); exact .of_eq rfl]

/-- R168, R174: the completion of the scan discards the record and leaves the link. -/
theorem State.completeScan_quiet (s : State) : s.Quiet s.completeScan := by
  have entered : s.Quiet s.enterScan := ⟨fun _ _ hm => hm, fun _ ⟨_, hr, _⟩ => nomatch hr⟩
  unfold State.completeScan
  split <;> [exact entered.trans (.of_eq (State.startFlight_promises _)); exact .refl s]

/-! ### The host's commands and writes -/

/-- R117: a command write leaves the promises when the body of the command does. -/
theorem State.issue_promises {b : State → State} (hb : ∀ u, (b u).promises = u.promises) (s : State) (code : Byte) :
    (s.issue code b).promises = s.promises := by
  unfold State.issue
  split <;> [skip; rfl]
  split <;> [rfl; exact hb _]

theorem State.whenRunning_promises {b : State → State} (hb : ∀ u, (b u).promises = u.promises) (s : State) :
    (s.whenRunning b).promises = s.promises := by
  unfold State.whenRunning; split <;> [exact hb s; rfl]

theorem State.complete_promises (r : Result) (s : State) : (s.complete r).promises = s.promises := rfl

theorem State.takeDiscard_promises (s : State) : s.takeDiscard.promises = s.promises := rfl

theorem State.takeFetch_promises (s : State) : s.takeFetch.promises = s.promises := by
  unfold State.takeFetch; (repeat' split) <;> rfl

theorem State.takeNew_promises (s : State) : s.takeNew.promises = s.promises := by
  unfold State.takeNew; (repeat' split) <;> rfl

theorem State.takeStore_promises (s : State) : s.takeStore.promises = s.promises := by
  unfold State.takeStore; (repeat' split) <;> simp [State.promises]

theorem State.takeRelease_promises (s : State) : s.takeRelease.promises = s.promises := by
  unfold State.takeRelease; (repeat' split) <;> simp [State.promises]

theorem State.takeLocate_promises (s : State) : s.takeLocate.promises = s.promises := by
  unfold State.takeLocate; dsimp only; (repeat' split) <;> rfl

theorem State.takeResolveMoved_promises (s : State) : s.takeResolveMoved.promises = s.promises := by
  unfold State.takeResolveMoved; split <;> simp [State.promises]

theorem State.takeResolveNotMoved_promises (s : State) : s.takeResolveNotMoved.promises = s.promises := by
  unfold State.takeResolveNotMoved; split <;> simp [State.promises]

theorem State.takeDeclareSpindleEmpty_promises (s : State) : s.takeDeclareSpindleEmpty.promises = s.promises := by
  unfold State.takeDeclareSpindleEmpty; split <;> rfl

theorem State.takeRetryStore_promises (s : State) : s.takeRetryStore.promises = s.promises := by
  unfold State.takeRetryStore; (repeat' split) <;> simp [State.promises]

theorem State.takeFlush_promises (s : State) : s.takeFlush.promises = s.promises := by
  unfold State.takeFlush; split <;> rfl

theorem State.completeFlush_promises (s : State) : s.completeFlush.promises = s.promises := by
  unfold State.completeFlush; split <;> rfl

theorem State.takeConfigStore_promises (s : State) : s.takeConfigStore.promises = s.promises := by
  unfold State.takeConfigStore; (repeat' split) <;> simp [State.promises]

theorem State.writeCommand_promises (s : State) (code : Byte) : (s.writeCommand code).promises = s.promises := by
  unfold State.writeCommand
  split
  · exact State.issue_promises State.takeFetch_promises _ _
  · exact State.issue_promises (State.whenRunning_promises State.takeNew_promises) _ _
  · exact State.issue_promises State.takeStore_promises _ _
  · exact State.issue_promises State.takeDiscard_promises _ _
  · exact State.issue_promises (State.whenRunning_promises State.takeRelease_promises) _ _
  · exact State.issue_promises State.takeLocate_promises _ _
  · exact State.issue_promises (State.whenRunning_promises State.takeResolveMoved_promises) _ _
  · exact State.issue_promises (State.whenRunning_promises State.takeResolveNotMoved_promises) _ _
  · exact State.issue_promises (State.whenRunning_promises State.takeDeclareSpindleEmpty_promises) _ _
  · exact State.issue_promises (State.whenRunning_promises State.takeRetryStore_promises) _ _
  · exact State.issue_promises State.takeFlush_promises _ _
  · exact State.issue_promises (State.whenRunning_promises State.takeConfigStore_promises) _ _
  · exact State.issue_promises (State.complete_promises .unknownCommand) _ _

theorem State.writeStatus_promises (s : State) (d : Byte) : (s.writeStatus d).promises = s.promises := by
  unfold State.writeStatus; split <;> rfl

theorem State.writeIntPending_promises (s : State) (d : Byte) : (s.writeIntPending d).promises = s.promises := by
  unfold State.writeIntPending; split <;> rfl

theorem State.writeIntEnable_promises (s : State) (d : Byte) : (s.writeIntEnable d).promises = s.promises := by
  unfold State.writeIntEnable; split <;> rfl

theorem State.writeWindow_promises (s : State) (a : BitVec 10) (d : Byte) :
    (s.writeWindow a d).promises = s.promises := by
  unfold State.writeWindow
  split <;> [skip; rfl]
  split
  · exact s.writeStatus_promises d
  · exact s.writeCommand_promises d
  · exact s.writeIntPending_promises d
  · exact s.writeIntEnable_promises d
  · rfl

theorem State.writeHold_promises (s : State) (k : Slot) (v : Bool) : (s.writeHold k v).promises = s.promises := by
  unfold State.writeHold; split <;> [exact s.claim_promises _ _ _; rfl]

theorem State.writeMeasure_promises (s : State) (k : Slot) (v : Bool) :
    (s.writeMeasure k v).promises = s.promises := by
  unfold State.writeMeasure; split <;> [exact s.claim_promises _ _ _; rfl]

theorem State.writeAttn_promises (s : State) (k : Slot) (v : Bool) : (s.writeAttn k v).promises = s.promises := by
  unfold State.writeAttn; split <;> rfl

/-! ### The two commands that release answers and set marks -/

/-- Every command but the release of a record and the end of a commit attempt is quiet. -/
theorem exec_quiet {c : Instr} (hr : c ≠ .answerRelease) (hc : ∀ v n, c ≠ .commitAttempt v n)
    (h : exec c s = .next t) : s.Quiet t := by
  cases c <;> rw [← Host.Outcome.next.inj h]
  case call o take => exact State.latchRequest_quiet (fun u => u.decideCall_quiet _) _ _ _ _
  case putaway o take => exact State.latchRequest_quiet State.decidePutaway_quiet _ _ _ _
  case done o => exact State.latchRequest_quiet (fun u => u.decideDone_quiet _) _ _ _ _
  case abandon o => exact State.latchRequest_quiet (fun u => u.decideAbandon_quiet _) _ _ _ _
  case charge o take => exact State.latchRequest_quiet (fun u => u.decideCharge_quiet _) _ _ _ _
  case damage o take => exact State.latchRequest_quiet State.decideDamage_quiet _ _ _ _
  case probe o take => exact State.latchRequest_quiet (fun u => u.decideProbe_quiet _) _ _ _ _
  case unknownRequest kind o => exact State.latchRequest_quiet (fun u => u.decideRequest_quiet _ _) _ _ _ _
  case requestTakeByBlock => exact s.takeHandedOn_quiet
  case rqstbLeadingEdge | strobeWhileBusy => exact .of_eq s.rqstbLeading_promises
  case antakeLeadingEdge | takeWithoutAnswer => exact .of_eq s.antakeLeading_promises
  case answerTake => exact s.takeAnswer_quiet
  case answerRelease => exact absurd rfl hr
  case exchangeTimerExpiry => exact .of_eq s.expireTimer_promises
  case reset => exact s.assertReset_quiet
  case resetRelease | dirtyWrite => exact .of_eq rfl
  case fetch => exact .of_eq (s.writeCommand_promises 1)
  case new => exact .of_eq (s.writeCommand_promises 2)
  case store => exact .of_eq (s.writeCommand_promises 3)
  case discard => exact .of_eq (s.writeCommand_promises 4)
  case release => exact .of_eq (s.writeCommand_promises 5)
  case locate => exact .of_eq (s.writeCommand_promises 6)
  case resolveMoved => exact .of_eq (s.writeCommand_promises 7)
  case resolveNotMoved => exact .of_eq (s.writeCommand_promises 8)
  case declareSpindleEmpty => exact .of_eq (s.writeCommand_promises 9)
  case retryStore => exact .of_eq (s.writeCommand_promises 10)
  case flush => exact .of_eq (s.writeCommand_promises 11)
  case configStore => exact .of_eq (s.writeCommand_promises 12)
  case unknownCommand code => exact .of_eq (s.writeCommand_promises code)
  case flushComplete => exact .of_eq s.completeFlush_promises
  case statusWrite d => exact .of_eq (s.writeStatus_promises d)
  case intPendingWrite d => exact .of_eq (s.writeIntPending_promises d)
  case intEnableWrite d => exact .of_eq (s.writeIntEnable_promises d)
  case registerWrite a d => exact .of_eq (s.writeWindow_promises a d)
  case holdSet k | holdClear k => exact .of_eq (s.writeHold_promises k _)
  case measureSet k | measureClear k => exact .of_eq (s.writeMeasure_promises k _)
  case attnSet k | attnClear k => exact .of_eq (s.writeAttn_promises k _)
  case commitStart => exact .of_eq s.startFlight_promises
  case commitAttempt v n => exact absurd rfl (hc v n)
  case vccRise => exact s.supplyRises_quiet
  case vccFall => exact s.supplyFalls_quiet
  case powerOff => exact s.losePower_quiet
  case settleIntervalEnd => exact s.endSettle_quiet
  case scanComplete => exact s.completeScan_quiet

/-- R80, R82, R105: all that the release of a record can do: nothing, the answer of a store fault, or the withheld
answer of a record whose slots are all marked. -/
theorem State.releaseRecord_cases (s : State) : s.releaseRecord = s ∨ s.opState = .running ∧
    ∃ r, s.confirmation = some r ∧ ((∃ k, r.failed = some k ∧ s.releaseRecord = s.replaceAnswer r.withheld k) ∨
      (r.failed = none ∧ (∀ e ∈ r.waiting, e.2 = true) ∧
        s.releaseRecord = { s with link := s.link.fill r.withheld.released, confirmation := none })) := by
  unfold State.releaseRecord
  split <;> [skip; exact .inl rfl]
  rename_i running
  split <;> [exact .inl rfl; skip]
  rename_i r hr
  split
  · rename_i k hk; exact .inr ⟨running, r, hr, .inl ⟨k, hk, rfl⟩⟩
  · rename_i hf
    split <;> [skip; exact .inl rfl]
    rename_i all
    exact .inr ⟨running, r, hr, .inr ⟨hf, List.all_eq_true.1 all, rfl⟩⟩

/-- R105: a fill brings in its own word alone. -/
theorem Link.mem_fill {l : Link} {a b : Answer} (h : some b ∈ (l.fill a).answers) : some b ∈ l.answers ∨ b = a := by
  have kept (hm : some b ∈ l.answers.dropLast ++ [some a]) : some b ∈ l.answers ∨ b = a := by
    rcases List.mem_append.1 hm with hm | hm
    · exact .inl (List.dropLast_subset _ hm)
    · exact .inr (Option.some.inj (List.mem_singleton.1 hm))
  unfold Link.fill at h
  split at h <;> [skip; exact .inl h]
  split at h <;> exact kept h

/-- R82, R89: the answer that replaces a withheld one is STORE_FAULT or DONE_UNSAVED, and the record ends. -/
theorem State.replaceAnswer_quiet (s : State) (w : Withheld) (k : Slot) : s.Quiet (s.replaceAnswer w k) := by
  have replaced (u : State) (hu : u.link = s.link) (b : Answer) (hb : b.durable = false) :
      s.Quiet { u with link := u.link.fill b, confirmation := none } := by
    refine ⟨fun a ha hm => ?_, fun _ ⟨_, hr, _⟩ => nomatch hr⟩
    rcases Link.mem_fill hm with hm | rfl
    · rwa [hu] at hm
    · rw [ha] at hb; cases hb
  unfold State.replaceAnswer
  split
  · refine replaced _ ?_ _ rfl
    split <;> simp
  · exact replaced s rfl _ rfl
  · exact replaced s rfl _ rfl

/-- R80, R105: a durable answer that a release brings in was withheld by a record whose slots are all marked. -/
theorem State.durable_of_releaseRecord {a : Answer} (ha : a.durable = true)
    (h : some a ∈ s.releaseRecord.link.answers) : some a ∈ s.link.answers ∨ s.opState = .running ∧
      ∃ r, s.confirmation = some r ∧ r.withheld.released = a ∧ r.failed = none ∧ ∀ e ∈ r.waiting, e.2 = true := by
  rcases s.releaseRecord_cases with e | ⟨running, r, hr, ⟨k, -, e⟩ | ⟨hf, all, e⟩⟩ <;> rw [e] at h
  · exact .inl h
  · exact .inl ((s.replaceAnswer_quiet _ k).answers a ha h)
  · rcases Link.mem_fill h with hm | rfl
    · exact .inl hm
    · exact .inr ⟨running, r, hr, rfl, hf, all⟩

/-- R81: a release sets no mark. -/
theorem State.marked_of_releaseRecord {k : Slot} (h : s.releaseRecord.Marked k) : s.Marked k := by
  rcases s.releaseRecord_cases with e | ⟨-, r, -, ⟨j, -, e⟩ | ⟨-, -, e⟩⟩ <;> rw [e] at h
  · exact h
  · exact (s.replaceAnswer_quiet _ j).marks k h
  · obtain ⟨_, hr, _⟩ := h; cases hr

/-- R81: the only mark that a notice sets is that of its own slot, by a completion after the claim. -/
theorem State.marked_of_notify {j k : Slot} {completed after : Bool} (h : (s.notify j completed after).Marked k) :
    s.Marked k ∨ (k = j ∧ completed = true ∧ after = true) := by
  unfold State.notify at h
  split at h <;> [skip; exact .inl h]
  rename_i c hc
  split at h <;> [skip; exact .inl h]
  rename_i taken
  obtain ⟨r, hr, hk⟩ := h
  obtain rfl := Option.some.inj hr
  cases completed with
  | true =>
    obtain ⟨e, he, same⟩ := List.mem_map.1 hk
    split at same
    · exact .inr ⟨(Prod.mk.inj same).1.symm, rfl, (Bool.and_eq_true_iff.1 taken).2⟩
    · exact .inl ⟨c, hc, same ▸ he⟩
  | false =>
    refine .inl ⟨c, hc, ?_⟩
    have noted : (c.noteFailure j).waiting = c.waiting := by unfold Confirmation.noteFailure; split <;> rfl
    exact noted ▸ hk

/-- R81, R158: the only mark that the end of an attempt sets is that of the slot in flight, when its verify passes and
its snapshot was taken after the claim. -/
theorem State.marked_of_endAttempt {v : Verify} {k : Slot} (h : (s.endAttempt v).Marked k) : s.Marked k ∨
    ∃ f fields stamp from_, v = .pass ∧ s.flight = some f ∧ f.content = .slot k fields stamp ∧
      s.confirmFrom[k] = some from_ ∧ (stamp - from_).toNat ≤ 32767 := by
  have unchanged (u : State) (hu : u.confirmation = s.confirmation) (hk : u.Marked k) : s.Marked k := by
    unfold State.Marked at hk; rwa [hu] at hk
  unfold State.endAttempt at h
  split at h <;> [exact .inl h; skip]
  rename_i f hf
  cases v with
  | pass =>
    cases hc : f.content with
    | slot j fields stamp =>
      simp only [State.completeFlight, hc] at h
      rcases State.marked_of_notify h with old | ⟨rfl, -, after⟩
      · exact .inl (unchanged _ (by simp) old)
      · obtain ⟨from_, hs, near⟩ := (State.snapshotAfter_iff _ _ _).1 after
        exact .inr ⟨f, fields, stamp, from_, rfl, hf, hc, by simpa using hs, near⟩
    | cfg c =>
      simp only [State.completeFlight, hc] at h
      exact .inl (unchanged _ (by simp) h)
  | fail =>
    dsimp only at h
    split at h
    · exact .inl (unchanged _ (by simp) h)
    · cases hc : f.content with
      | slot j fields stamp =>
        simp only [State.failFlight, hc] at h
        rcases State.marked_of_notify h with old | ⟨-, completed, -⟩
        · exact .inl (unchanged _ (by simp) old)
        · cases completed
      | cfg c =>
        simp only [State.failFlight, hc] at h
        exact .inl (unchanged _ (by simp) h)

end

/-- Settles O33: every command is quiet but the release and the end of an attempt, of which the release alone brings in
a durable answer, and the attempt alone sets a mark. -/
theorem durableAnswersWaitForTheirCommits : Obligations.DurableAnswersWaitForTheirCommits := by
  constructor
  · intro c s t a he hm durable
    rw [← Answer.durable_iff] at durable
    by_cases hr : c = .answerRelease
    · subst hr
      rw [← Host.Outcome.next.inj he] at hm
      rcases State.durable_of_releaseRecord durable hm with old | ⟨running, r, hc, ha, hf, all⟩
      · exact .inl old
      · exact .inr ⟨running, r, ha, hf, all, .inl ⟨rfl, hc⟩⟩
    by_cases hc : ∃ v n, c = .commitAttempt v n
    · obtain ⟨v, n, rfl⟩ := hc
      rw [← Host.Outcome.next.inj he] at hm
      cases n with
      | later => exact .inl (by simpa using hm)
      | inStep =>
        rcases State.durable_of_releaseRecord durable hm with old | ⟨running, r, hc, ha, hf, all⟩
        · exact .inl (by simpa using old)
        · exact .inr ⟨by simpa using running, r, ha, hf, all, .inr ⟨v, _, rfl, rfl, hc⟩⟩
    · exact .inl ((exec_quiet hr (fun v n e => hc ⟨v, n, e⟩) he).answers a durable hm)
  · intro c s t r k he hr hk
    have marked : t.Marked k := ⟨r, hr, hk⟩
    by_cases ha : c = .answerRelease
    · subst ha
      rw [← Host.Outcome.next.inj he] at marked
      exact .inl (State.marked_of_releaseRecord marked)
    by_cases hc : ∃ v n, c = .commitAttempt v n
    · obtain ⟨v, n, rfl⟩ := hc
      rw [← Host.Outcome.next.inj he] at marked
      have ended : (s.endAttempt v).Marked k := by
        cases n <;> [exact State.marked_of_releaseRecord marked; exact marked]
      rcases State.marked_of_endAttempt ended with old | ⟨f, fields, stamp, from_, rfl, rest⟩
      · exact .inl old
      · exact .inr ⟨n, f, fields, stamp, from_, rfl, rest⟩
    · exact .inl ((exec_quiet ha (fun v n e => hc ⟨v, n, e⟩) he).marks k marked)

end Sys2Proof.Machine

/-! ## The exchange transaction: PUTAWAY, DONE, ABANDON, the release, the timer, /RESET and RESOLVE (O27–O32,
O34, O35, O42) -/

namespace Sys2Proof.Machine

/-! ### The ends of an exchange -/

section
variable {s t u : State} {x : OpenExchange} {m : Movement} {ws : List (Slot × Record)} {sp : Spindle}

/-- The close of an exchange (R83, R86, R93): from `s` to `t` the slots `ws` are rewritten, the spindle becomes `sp`,
the context IDLE, and nothing else changes. -/
structure State.Closed (s t : State) (ws : List (Slot × Record)) (sp : Spindle) : Prop where
  rewritten : s.Rewritten t ws
  frame : t = { s with image := t.image, queue := t.queue, spindle := sp, exchange := .idle }

theorem State.Closed.idle (h : s.Closed t ws sp) : t.exchange = .idle := by rw [h.frame]

theorem State.Closed.spindle (h : s.Closed t ws sp) : t.spindle = sp := by rw [h.frame]

/-- R86, R93: the completed movement closes the exchange. -/
theorem State.closed_completeMove (h : s.ExchangeSound) (hx : s.exchange.open? = some x) :
    s.Closed (s.completeMove x.movement) (s.fieldsIfMoved x.movement) x.movement.spindleAfterMove where
  rewritten := s.rewritten_completeMove h hx
  frame := by apply State.ext <;> simp <;> rfl

/-- R83: the revert closes the exchange. -/
theorem State.closed_revert (h : s.ExchangeSound) (hx : s.exchange.open? = some x) :
    s.Closed (s.revert x.movement) (s.fieldsIfReverted x.movement) x.movement.spindleAfterRevert where
  rewritten := s.rewritten_revert h hx
  frame := by apply State.ext <;> simp <;> rfl

/-- R90, R146: a suspicion raises the SUSPECT cause. -/
theorem State.suspectExchange_host (s : State) (x : OpenExchange) (c : Suspicion) : (s.suspectExchange x c).host =
    { s.host with causes := { s.host.causes with suspect := true } } := by
  simp [State.suspectExchange]

/-- R90: a suspicion changes the image, the queue, the spindle, the context and the causes alone. -/
theorem State.suspectExchange_frame (s : State) (x : OpenExchange) (c : Suspicion) : s.suspectExchange x c =
    { s with image := (s.suspectExchange x c).image, queue := (s.suspectExchange x c).queue
             spindle := .unknown, exchange := .suspect x c
             host := { s.host with causes := { s.host.causes with suspect := true } } } := by
  apply State.ext <;> simp <;> simp [State.suspectExchange]

/-- R80, R102: a request that closes the exchange and withholds its answer, over the state in which it was handed on. -/
theorem State.Closed.withhold {kind : BitVec 4} {operand : BitVec 12} {f g : Nat → Record → Record}
    (h : (s.handed kind operand).Closed u ((s.handed kind operand).movedFields m f g) sp) (w : Withheld) :
    ∃ t, u.withhold m w = t ∧ s.Rewritten t (s.movedFields m f g) ∧ t.exchange = .idle ∧ t.spindle = sp ∧
      s.Awaited t m w ∧ t.link = s.link.waiting kind operand ∧
      t = { s with image := t.image, queue := t.queue, spindle := t.spindle, exchange := t.exchange,
                   confirmation := t.confirmation, confirmFrom := t.confirmFrom, flight := t.flight,
                   link := t.link } := by
  have rewritten := h.rewritten.of_handed
  obtain ⟨i, q, rfl⟩ : ∃ i q, u = { s.handed kind operand with image := i, queue := q, spindle := sp,
                                                                exchange := .idle } := ⟨_, _, h.frame⟩
  have awaited := s.awaited_awaitCommits { s.handed kind operand with image := i, queue := q, spindle := sp,
                                                                      exchange := .idle } m w rfl rfl
  refine ⟨_, rfl, rewritten.congr ?_ ?_, ?_, ?_, awaited.congr rfl rfl rfl rfl, ?_, ?_⟩
  · simp [State.withhold]
  · simp [State.withhold]
  · simp [State.withhold]
  · simp [State.withhold]
  · simp only [State.withhold, State.setLink_link, State.awaitCommits_link]; rfl
  · apply State.ext <;> simp [State.withhold] <;> rfl

/-! ### PUTAWAY -/

/-- R77: step 3 of PUTAWAY. -/
theorem State.decidePutaway_of_open {a : Answer} (h : s.exchange.refusal = some a) : s.decidePutaway = s.answer a := by
  simp only [State.decidePutaway, h]

/-- R77: steps 4 and 5 of PUTAWAY. -/
theorem State.decidePutaway_of_spindle {a : Answer} (hx : s.exchange = .idle)
    (h : (s.spindle = .empty ∧ a = .spindleEmpty) ∨ (s.spindle = .unknown ∧ a = .spindleUnknown)) :
    s.decidePutaway = s.answer a := by
  rcases h with ⟨hs, rfl⟩ | ⟨hs, rfl⟩ <;> simp only [State.decidePutaway, hx, Exchange.refusal, hs]

/-- R77, R69: steps 6 and 7 of PUTAWAY, by the choice of the return pocket. -/
theorem State.decidePutaway_of_holds {k : Slot} (hx : s.exchange = .idle) (hs : s.spindle = .holds k) :
    (∀ first, s.returnForPutaway k = .noRoom first → s.decidePutaway = s.answer (.noRoom first)) ∧
      (∀ r, s.returnForPutaway k = .chosen r → s.decidePutaway = s.openExchange (.putaway k r)) := by
  constructor <;> intro r hr <;> simp only [State.decidePutaway, hx, Exchange.refusal, hs, hr]

/-! ### DONE and ABANDON -/

/-- R88: a DONE that finds no RESERVED exchange with its tag. -/
theorem State.decideDone_of_refused {n : Nat} {a : Answer} (h : s.exchange.tagRefusal n = some a) :
    s.decideDone n = s.answer a := by
  simp only [State.decideDone, h]

/-- R88: an ABANDON that finds no RESERVED exchange with its tag. -/
theorem State.decideAbandon_of_refused {n : Nat} {a : Answer} (h : s.exchange.tagRefusal n = some a) :
    s.decideAbandon n = s.answer a := by
  simp only [State.decideAbandon, h]

/-- R86: a DONE that finds its exchange RESERVED. -/
theorem State.decideDone_of_reserved {timer n : Nat} (hx : s.exchange = .reserved x timer) (ht : x.tag = n) :
    s.decideDone n = (s.completeMove x.movement).withhold x.movement (.doneOk n) := by
  simp only [State.decideDone, hx, Exchange.tagRefusal, ht, if_true]; rfl

/-- R87: an ABANDON that finds its exchange RESERVED. -/
theorem State.decideAbandon_of_reserved {timer n : Nat} (hx : s.exchange = .reserved x timer) (ht : x.tag = n) :
    s.decideAbandon n = (s.revert x.movement).withhold x.movement (.abandoned n) := by
  simp only [State.decideAbandon, hx, Exchange.tagRefusal, ht, if_true]; rfl

/-- R88: the table of the refusals of DONE and ABANDON. -/
theorem Exchange.tagRefusal_eq_some {e : Exchange} {n : Nat} {a : Answer}
    (h : (e = .idle ∧ a = .noExchange) ∨ (∃ x timer, e = .reserved x timer ∧ x.tag ≠ n ∧ a = .badTag x.tag) ∨
      (∃ x cause, e = .suspect x cause ∧ x.tag = n ∧ a = .tooLate x.tag) ∨
      (∃ x cause, e = .suspect x cause ∧ x.tag ≠ n ∧ a = .badTag x.tag)) : e.tagRefusal n = some a := by
  rcases h with ⟨rfl, rfl⟩ | ⟨x, timer, rfl, ht, rfl⟩ | ⟨x, cause, rfl, ht, rfl⟩ | ⟨x, cause, rfl, ht, rfl⟩
  · rfl
  · exact if_neg ht
  · exact if_pos ht
  · exact if_neg ht

/-! ### The release of a confirmation record -/

theorem State.releaseRecord_of_none (h : s.confirmation = none) : s.releaseRecord = s := by
  simp only [State.releaseRecord, h, ite_self]

/-- R80: a record without a store fault waits for the slot that is not marked. -/
theorem State.releaseRecord_of_unmarked {c : Confirmation} {k : Slot} (hc : s.confirmation = some c)
    (hf : c.failed = none) (hk : (k, false) ∈ c.waiting) : s.releaseRecord = s := by
  have unmarked : ¬ c.waiting.all (fun e => e.2) = true := fun all => nomatch List.all_eq_true.1 all _ hk
  simp only [State.releaseRecord, hc, hf, if_neg unmarked, ite_self]

/-- R80, R105: a record with every slot marked ends with its withheld answer. -/
theorem State.releaseRecord_of_marked {c : Confirmation} (running : s.opState = .running)
    (hc : s.confirmation = some c) (hf : c.failed = none) (hm : ∀ e ∈ c.waiting, e.2 = true) :
    s.releaseRecord = { s with link := s.link.fill c.withheld.released, confirmation := none } := by
  simp only [State.releaseRecord, if_pos running, hc, hf, if_pos (List.all_eq_true.2 hm)]

/-- R82, R89: a record that a store fault has reached ends with its replacement. -/
theorem State.releaseRecord_of_failed {c : Confirmation} {k : Slot} (running : s.opState = .running)
    (hc : s.confirmation = some c) (hf : c.failed = some k) : s.releaseRecord = s.replaceAnswer c.withheld k := by
  simp only [State.releaseRecord, if_pos running, hc, hf]

theorem Withheld.released_eq {w : Withheld} {a : Answer}
    (h : (∃ tag p, w = .tag tag p ∧ a = .tag tag p) ∨ (∃ tag, w = .doneOk tag ∧ a = .doneOk tag) ∨
      (∃ tag, w = .abandoned tag ∧ a = .abandoned tag)) : w.released = a := by
  rcases h with ⟨tag, p, rfl, rfl⟩ | ⟨tag, rfl, rfl⟩ | ⟨tag, rfl, rfl⟩ <;> rfl

/-- R89: the store fault of a DONE or ABANDON. -/
theorem State.replaceAnswer_of_closed {w : Withheld} {tag : Nat} (h : w = .doneOk tag ∨ w = .abandoned tag) (k : Slot) :
    s.replaceAnswer w k = { s with link := s.link.fill (.doneUnsaved tag), confirmation := none } := by
  rcases h with rfl | rfl <;> rfl

/-- R82: the store fault of a TAG reverts the OFFERED exchange. -/
theorem State.replaceAnswer_of_offered (hx : s.exchange = .offered x) (tag p : Nat) (k : Slot) :
    s.replaceAnswer (.tag tag p) k =
      { s.revert x.movement with link := s.link.fill (.storeFault k.val), confirmation := none } := by
  simp only [State.replaceAnswer, hx, State.revert_link]

/-! ### /RESET -/

/-- R92: all that /RESET makes of the image, the queue, the spindle and the context, by the state of the context. -/
structure State.ResetExchanged (s t : State) : Prop where
  idle : s.exchange = .idle → t.exchange = .idle ∧ t.image = s.image ∧ t.queue = s.queue ∧ t.spindle = s.spindle
  offered : ∀ x, s.exchange = .offered x → t.exchange = .idle ∧ s.Rewritten t (s.fieldsIfReverted x.movement) ∧
    (∀ k r, x.movement.outgoing = some (k, r) → t.spindle = .holds k) ∧
    (x.movement.outgoing = none → t.spindle = .empty)
  reserved : ∀ x timer, s.exchange = .reserved x timer → t.exchange = .suspect x .reset ∧
    s.Rewritten t (s.fieldsIfSuspected x.movement) ∧ t.spindle = .unknown ∧
    (∀ k ∈ x.movement.named, (t.slot k).attn = true)
  suspect : ∀ x cause, s.exchange = .suspect x cause →
    t.exchange = s.exchange ∧ t.image = s.image ∧ t.queue = s.queue ∧ t.spindle = s.spindle

theorem State.ResetExchanged.congr (h : s.ResetExchanged t) (hi : u.image = t.image) (hq : u.queue = t.queue)
    (hs : u.spindle = t.spindle) (hx : u.exchange = t.exchange) : s.ResetExchanged u where
  idle e := by rw [hx, hi, hq, hs]; exact h.idle e
  offered x e := by
    obtain ⟨idle, rewritten, spindle⟩ := h.offered x e
    rw [hx, hs]; exact ⟨idle, rewritten.congr hi hq, spindle⟩
  reserved x timer e := by
    obtain ⟨suspect, rewritten, spindle, attn⟩ := h.reserved x timer e
    rw [hx, hs]
    exact ⟨suspect, rewritten.congr hi hq, spindle, fun k hk => by rw [State.slot_eq _ _ hi]; exact attn k hk⟩
  suspect x cause e := by rw [hx, hi, hq, hs]; exact h.suspect x cause e

/-- R92: the confirmation record discarded. -/
abbrev State.discarded (s : State) : State := { s with confirmation := none }

theorem State.ExchangeSound.discarded (h : s.ExchangeSound) : s.discarded.ExchangeSound :=
  ⟨h.distinct, h.occupied, h.movingIn, h.movingBack, h.doubted, h.exchanging, h.suspected⟩

theorem State.resetExchange_of_idle (hx : s.exchange = .idle) : s.resetExchange = s.discarded := by
  simp only [State.resetExchange, State.discarded, hx]

theorem State.resetExchange_of_offered (hx : s.exchange = .offered x) :
    s.resetExchange = s.discarded.revert x.movement := by
  simp only [State.resetExchange, State.discarded, hx]

theorem State.resetExchange_of_reserved {timer : Nat} (hx : s.exchange = .reserved x timer) :
    s.resetExchange = s.discarded.suspectExchange x .reset := by
  simp only [State.resetExchange, State.discarded, hx]

theorem State.resetExchange_of_suspect {cause : Suspicion} (hx : s.exchange = .suspect x cause) :
    s.resetExchange = s.discarded := by
  simp only [State.resetExchange, State.discarded, hx]

/-- R92: the effect of /RESET on a sound context. -/
theorem State.resetExchanged_resetExchange (h : s.ExchangeSound) : s.ResetExchanged s.resetExchange where
  idle hx := by rw [State.resetExchange_of_idle hx]; exact ⟨hx, rfl, rfl, rfl⟩
  offered x hx := by
    have closed := State.closed_revert h.discarded (show s.exchange.open? = some x by rw [hx]; rfl)
    obtain ⟨holds, empty⟩ := x.movement.spindleAfterRevert_eq
    rw [State.resetExchange_of_offered hx]
    exact ⟨closed.idle, closed.rewritten.base rfl rfl, fun k r e => closed.spindle.trans (holds k r e),
      fun e => closed.spindle.trans (empty e)⟩
  reserved x timer hx := by
    have isOpen : s.exchange.open? = some x := by rw [hx]; rfl
    have calm : s.exchange.suspect? = none := by rw [hx]; rfl
    have rewritten := State.rewritten_suspectExchange _ h.discarded isOpen calm .reset
    rw [State.resetExchange_of_reserved hx]
    exact ⟨rfl, rewritten.base rfl rfl, rfl, State.suspectExchange_attn _ h.discarded isOpen calm .reset⟩
  suspect x cause hx := by rw [State.resetExchange_of_suspect hx]; exact ⟨rfl, rfl, rfl, rfl⟩

/-- R92: /RESET discards the record, and its effect on the context leaves the rest of the part but the causes. -/
theorem State.resetExchange_frame (s : State) : ∃ causes, s.resetExchange =
    { s with confirmation := none, image := s.resetExchange.image, queue := s.resetExchange.queue
             spindle := s.resetExchange.spindle, exchange := s.resetExchange.exchange
             host := { s.host with causes := causes } } := by
  cases hx : s.exchange with
  | idle => rw [State.resetExchange_of_idle hx]; exact ⟨s.host.causes, rfl⟩
  | offered x => rw [State.resetExchange_of_offered hx]; exact ⟨s.host.causes, by apply State.ext <;> simp⟩
  | reserved x timer =>
    rw [State.resetExchange_of_reserved hx]
    exact ⟨{ s.host.causes with suspect := true }, State.suspectExchange_frame _ _ _⟩
  | suspect x cause => rw [State.resetExchange_of_suspect hx]; exact ⟨s.host.causes, rfl⟩

/-- R132, R133: the staging registers after /RESET take the applied configuration. -/
theorem State.resetHost_staged {c : Configuration} (h : s.config = some c) :
    s.resetHost.host.stageP = BitVec.ofNat 8 c.pockets ∧
      s.resetHost.host.stagePolicy = (if c.policy = .fixed then 0 else 1) ∧
      s.resetHost.host.stageTimeout = BitVec.ofNat 8 c.timeout := by
  obtain ⟨pockets, policy, timeout⟩ := c
  simp only [State.resetHost, h, Option.map_some, Option.getD_some]
  cases policy <;> exact ⟨rfl, rfl, rfl⟩

/-- R132, R168: the staging registers after /RESET are 0 while no configuration is applied. -/
theorem State.resetHost_unstaged (h : s.config = none) : s.resetHost.host.stageP = 0 ∧
    s.resetHost.host.stagePolicy = 0 ∧ s.resetHost.host.stageTimeout = 0 := by
  simp only [State.resetHost, h, Option.map_none, Option.getD_none]
  exact ⟨rfl, rfl, rfl⟩

theorem Exchange.isSuspect_iff (e : Exchange) : e.isSuspect = true ↔ e.suspect? ≠ none := by
  rw [Ne, ← Exchange.isSuspect_eq_false, Bool.not_eq_false]

/-- R92, R111: /RESET in a powered part. -/
theorem State.assertReset_of_on (on : s.opState ≠ .off) (low : s.resetLow = false) : s.assertReset =
    { (s.resetExchange.setLink Link.cleared).resetHost with resetLow := true, lostAnswer := s.lostMark } := by
  simp only [State.assertReset, low, Bool.false_eq_true, if_false, if_neg on]

/-! ### RESOLVE_MOVED and RESOLVE_NOT_MOVED -/

theorem State.takeResolveMoved_of_suspect {c : Suspicion} (hx : s.exchange = .suspect x c) :
    s.takeResolveMoved = (s.completeMove x.movement).complete .ok := by
  simp only [State.takeResolveMoved, hx]

theorem State.takeResolveNotMoved_of_suspect {c : Suspicion} (hx : s.exchange = .suspect x c) :
    s.takeResolveNotMoved = (s.revert x.movement).complete .ok := by
  simp only [State.takeResolveNotMoved, hx]

theorem State.takeResolveMoved_of_none (h : s.exchange.suspect? = none) :
    s.takeResolveMoved = s.complete .noExchange := by
  unfold State.takeResolveMoved
  split <;> [(rename_i hx; rw [hx] at h; cases h); rfl]

theorem State.takeResolveNotMoved_of_none (h : s.exchange.suspect? = none) :
    s.takeResolveNotMoved = s.complete .noExchange := by
  unfold State.takeResolveNotMoved
  split <;> [(rename_i hx; rw [hx] at h; cases h); rfl]

/-- R93: a command that closes the exchange and completes, over the state in which its body runs. -/
theorem State.Closed.resolved {code : Byte} (h : (s.withCommand code).Closed u ws sp) :
    ∃ t, u.complete .ok = t ∧ s.Rewritten t ws ∧ t.exchange = .idle ∧ t.spindle = sp ∧
      t = { s.commandDone code .ok with image := t.image, queue := t.queue, spindle := t.spindle,
                                        exchange := t.exchange } := by
  refine ⟨_, rfl, (h.rewritten.base (s := s) rfl rfl).congr rfl rfl, h.idle, h.spindle, ?_⟩
  rw [h.frame]; rfl

end

/-! ### The statements -/

/-- Settles O27: the steps 3 to 6 of PUTAWAY, each an answer alone. -/
theorem putawayRefusals : Obligations.PutawayRefusals := by
  intro s a ha h
  have decision : (s.handed 6 0).decidePutaway = (s.handed 6 0).answer a := by
    rcases h with ⟨x, hx, rfl⟩ | ⟨x, timer, hx, rfl⟩ | ⟨x, cause, hx, rfl⟩ | ⟨hx, hs | hs | ⟨k, first, hs, hn, rfl⟩⟩
    · exact State.decidePutaway_of_open (congrArg Exchange.refusal hx)
    · exact State.decidePutaway_of_open (congrArg Exchange.refusal hx)
    · exact State.decidePutaway_of_open (congrArg Exchange.refusal hx)
    · exact State.decidePutaway_of_spindle hx (.inl hs)
    · exact State.decidePutaway_of_spindle hx (.inr hs)
    · exact (State.decidePutaway_of_holds (s := s.handed 6 0) hx hs).1 first hn
  rw [exec_putaway_arrives s ha, decision, State.handed_answer]

/-- Settles O28: the open of R78 with the tool that stands in the spindle as the outgoing end alone. -/
theorem putawayOpensAnExchange : Obligations.PutawayOpensAnExchange := by
  intro s k r ha sound hx hs hr
  have decision : (s.handed 6 0).decidePutaway = (s.handed 6 0).openExchange (.putaway k r) :=
    (State.decidePutaway_of_holds (s := s.handed 6 0) hx hs).2 r hr
  have distinct : (Movement.putaway k r).distinct := List.nodup_singleton k
  obtain ⟨t, opened, rest⟩ := s.openExchange_spec 6 0 (.putaway k r) distinct (fun _ _ e => nomatch e)
    (fun j p e => by cases e; rw [(sound k).2 hs]; simp)
  exact ⟨t, by rw [exec_putaway_arrives s ha, decision, opened], rest⟩

/-- Settles O29: the completed movement closes the exchange, and its record withholds DONE_OK. -/
theorem doneClosesTheExchange : Obligations.DoneClosesTheExchange := by
  intro s o x timer ha sound h1 h2 hx tag
  have closed := State.closed_completeMove (sound.handed 2 o) (show s.exchange.open? = some x by rw [hx]; rfl)
  obtain ⟨t, taken, rewritten, idle, spindle, rest⟩ := closed.withhold (.doneOk o.toNat)
  obtain ⟨call, putaway⟩ := x.movement.spindleAfterMove_eq
  refine ⟨t, ?_, rewritten, idle, fun i p out e => spindle.trans (call i p out e),
    fun k r e => spindle.trans (putaway k r e), rest⟩
  rw [exec_done_arrives s o ha h1 h2, State.decideDone_of_reserved (s := s.handed 2 o) hx tag, taken]

/-- Settles O30: the revert closes the exchange, and its record withholds ABANDONED. -/
theorem abandonReverts : Obligations.AbandonReverts := by
  intro s o x timer ha sound h1 h2 hx tag
  have closed := State.closed_revert (sound.handed 3 o) (show s.exchange.open? = some x by rw [hx]; rfl)
  obtain ⟨t, taken, rewritten, idle, spindle, rest⟩ := closed.withhold (.abandoned o.toNat)
  obtain ⟨holds, empty⟩ := x.movement.spindleAfterRevert_eq
  refine ⟨t, ?_, rewritten, idle, fun k r e => spindle.trans (holds k r e), fun e => spindle.trans (empty e), rest⟩
  rw [exec_abandon_arrives s o ha h1 h2, State.decideAbandon_of_reserved (s := s.handed 3 o) hx tag, taken]

/-- Settles O31: both requests are refused by the one table of R88. -/
theorem doneAndAbandonRefused : Obligations.DoneAndAbandonRefused := by
  intro s o a ha h1 h2 h
  have refused := Exchange.tagRefusal_eq_some h
  rw [exec_done_arrives s o ha h1 h2, exec_abandon_arrives s o ha h1 h2,
    State.decideDone_of_refused (s := s.handed 2 o) refused,
    State.decideAbandon_of_refused (s := s.handed 3 o) refused]
  exact ⟨rfl, rfl⟩

/-- Settles O32, by what the record has been told of. -/
theorem answerReleaseEndsTheRecord : Obligations.AnswerReleaseEndsTheRecord := by
  refine ⟨fun s hr => ?_, fun s hc => ?_, fun s c k hc hf hk => ?_, ?_, ?_, ?_⟩
  · exact congrArg Host.Outcome.next (s.releaseRecord_waits hr)
  · exact congrArg Host.Outcome.next (State.releaseRecord_of_none hc)
  · exact congrArg Host.Outcome.next (State.releaseRecord_of_unmarked hc hf hk)
  · intro s c a running hc hf marked last answer
    refine congrArg Host.Outcome.next ?_
    rw [State.releaseRecord_of_marked running hc hf marked, Withheld.released_eq answer,
      Link.fill_eq_filled _ _ last]
  · intro s c k tag running hc hf withheld last
    refine congrArg Host.Outcome.next ?_
    rw [State.releaseRecord_of_failed running hc hf, State.replaceAnswer_of_closed withheld,
      Link.fill_eq_filled _ _ last]
  · intro s c k tag p x running hc hf withheld last hx sound
    have closed := State.closed_revert sound (x := x) (by rw [hx]; rfl)
    obtain ⟨holds, empty⟩ := x.movement.spindleAfterRevert_eq
    have released : s.releaseRecord =
        { s.revert x.movement with link := s.link.fill (.storeFault k.val), confirmation := none } := by
      rw [State.releaseRecord_of_failed running hc hf, withheld, State.replaceAnswer_of_offered hx]
    refine ⟨_, congrArg Host.Outcome.next released, Link.fill_eq_filled _ _ last, rfl,
      closed.rewritten.congr rfl rfl, closed.idle, fun o r e => closed.spindle.trans (holds o r e),
      fun e => closed.spindle.trans (empty e), ?_⟩
    apply State.ext <;> simp

/-- Settles O34: the suspicion of R90, and no timer outside RESERVED. -/
theorem timerExpirySuspects : Obligations.TimerExpirySuspects := by
  constructor
  · intro s x timer on hx sound
    have isOpen : s.exchange.open? = some x := by rw [hx]; rfl
    have calm : s.exchange.suspect? = none := by rw [hx]; rfl
    have expired : s.expireTimer = s.suspectExchange x .timeout := by simp only [State.expireTimer, hx, if_neg on]
    refine ⟨_, congrArg Host.Outcome.next expired, s.rewritten_suspectExchange sound isOpen calm _,
      s.suspectExchange_attn sound isOpen calm _, rfl, rfl, s.suspectExchange_host x _, ?_⟩
    rw [State.suspectExchange_host]; exact s.suspectExchange_frame x .timeout
  · intro s none
    refine congrArg Host.Outcome.next ?_
    unfold State.expireTimer
    split
    · rename_i x timer hx; exact absurd hx (none x timer)
    · rfl

/-- Settles O35: the effect on the context by its state, then the link and the Host Port over it. -/
theorem resetActs : Obligations.ResetActs := by
  refine ⟨fun s on low sound => ?_, fun s => rfl⟩
  obtain ⟨causes, frame⟩ := s.resetExchange_frame
  have config : s.resetExchange.config = s.config := by rw [frame]
  have work : s.resetExchange.host.work = s.host.work := by rw [frame]
  obtain ⟨idle, offered, reserved, suspect⟩ := (State.resetExchanged_resetExchange sound).congr
    (u := s.assertReset) (by rw [State.assertReset_of_on on low]; rfl) (by rw [State.assertReset_of_on on low]; rfl)
    (by rw [State.assertReset_of_on on low]; rfl) (by rw [State.assertReset_of_on on low]; rfl)
  refine ⟨s.assertReset, rfl, ?_, ?_, ?_, ?_, idle, offered, reserved, suspect, ?_⟩
  all_goals rw [State.assertReset_of_on on low]
  · show s.resetExchange.confirmation = none; rw [frame]
  · rfl
  · exact State.answerMarked rfl
  · refine ⟨⟨rfl, rfl, rfl, rfl, rfl, rfl, rfl, rfl, rfl, work, rfl⟩,
      fun c hc => State.resetHost_staged (s := s.resetExchange.setLink _) (config.trans hc),
      fun hc => State.resetHost_unstaged (s := s.resetExchange.setLink _) (config.trans hc),
      ⟨rfl, rfl, rfl, rfl, Exchange.isSuspect_iff _⟩, ?_⟩
    rw [frame]; rfl

/-- Settles O42: the close of a SUSPECT exchange, by the completed movement or by the revert. -/
theorem resolveClosesTheExchange : Obligations.ResolveClosesTheExchange := by
  intro s h running
  have moved : exec .resolveMoved s = .next (s.withCommand 7).takeResolveMoved := by
    simp only [exec, execResolveMoved]
    rw [State.issue_whenRunning s h running]
  have reverted : exec .resolveNotMoved s = .next (s.withCommand 8).takeResolveNotMoved := by
    simp only [exec, execResolveNotMoved]
    rw [State.issue_whenRunning s h running]
  rw [moved, reverted]
  refine ⟨fun none => ?_, fun x cause hx sound => ?_⟩
  · rw [State.takeResolveMoved_of_none (s := s.withCommand 7) none,
      State.takeResolveNotMoved_of_none (s := s.withCommand 8) none]
    exact ⟨rfl, rfl⟩
  · have isOpen : s.exchange.open? = some x := by rw [hx]; rfl
    rw [State.takeResolveMoved_of_suspect (s := s.withCommand 7) hx,
      State.takeResolveNotMoved_of_suspect (s := s.withCommand 8) hx]
    constructor
    · obtain ⟨t, done, rewritten, idle, spindle, frame⟩ :=
        (State.closed_completeMove (sound.withCommand 7) isOpen).resolved
      obtain ⟨call, putaway⟩ := x.movement.spindleAfterMove_eq
      exact ⟨t, by rw [done], rewritten, idle, fun i p out e => spindle.trans (call i p out e),
        fun k r e => spindle.trans (putaway k r e), frame⟩
    · obtain ⟨t, done, rewritten, idle, spindle, frame⟩ :=
        (State.closed_revert (sound.withCommand 8) isOpen).resolved
      obtain ⟨holds, empty⟩ := x.movement.spindleAfterRevert_eq
      exact ⟨t, by rw [done], rewritten, idle, fun k r e => spindle.trans (holds k r e),
        fun e => spindle.trans (empty e), frame⟩

end Sys2Proof.Machine

/-! ## The changer link: edges, latch, takes, and the one request in hand (O6–O13, O58) -/

namespace Sys2Proof.Machine

section
variable {s t : State}

/-! ### The commands by their port -/

/-- R97, R98, R100: a request is the latch of its word, decided by the block of its kind. -/
theorem exec_request {c : Instr} {kind : BitVec 4} {operand : BitVec 12} (h : request? c = some (kind, operand)) :
    ∃ take, ∀ s, exec c s = .next (s.latchRequest kind operand take (fun u => u.decideRequest kind operand)) := by
  cases c <;> cases h
  case call take | putaway take | charge take | damage take | probe take => exact ⟨take, fun _ => rfl⟩
  case done | abandon | unknownRequest => exact ⟨.inStep, fun _ => rfl⟩

/-- R117: a host command is the write of its code. -/
theorem exec_hostCode {c : Instr} {code : Byte} (h : hostCode? c = some code) (s : State) :
    exec c s = .next (s.writeCommand code) := by
  cases c <;> cases h <;> rfl

/-- R111, R113: neither port is served in OFF or while /RESET is held low. -/
theorem State.served_eq_false_iff (s : State) : s.served = false ↔ s.opState = .off ∨ s.resetLow = true := by
  simp [State.served, imp_iff_or_not, or_comm]

theorem exec_strobeEdge_of_unserved {c : Instr} (h : s.served = false) (hc : strobeEdge c = true) :
    exec c s = .next s := by
  cases hr : request? c with
  | some word =>
    obtain ⟨take, run⟩ := exec_request hr
    rw [run, State.latchRequest_not_served s h]
  | none =>
    cases c
    case rqstbLeadingEdge | strobeWhileBusy => exact congrArg Host.Outcome.next (by simp [State.rqstbLeading, h])
    case antakeLeadingEdge | takeWithoutAnswer => exact congrArg Host.Outcome.next (by simp [State.antakeLeading, h])
    case answerTake => exact congrArg Host.Outcome.next (by simp [State.takeAnswer, h])
    all_goals simp [strobeEdge, hr] at hc

theorem State.writeCommand_of_unserved (h : s.served = false) (code : Byte) : s.writeCommand code = s := by
  unfold State.writeCommand; split <;> exact s.issue_not_served h _ _

theorem exec_plainHostWrite_of_unserved {c : Instr} (h : s.served = false) (hc : plainHostWrite c = true) :
    exec c s = .next s := by
  cases c <;> cases hc <;> refine congrArg Host.Outcome.next ?_
  case statusWrite => simp [State.writeStatus, h]
  case intPendingWrite => simp [State.writeIntPending, h]
  case intEnableWrite => simp [State.writeIntEnable, h]
  case registerWrite => simp [State.writeWindow, h]
  case holdSet | holdClear => simp [State.writeHold, h]
  case measureSet | measureClear => simp [State.writeMeasure, h]
  case attnSet | attnClear => simp [State.writeAttn, h]
  case dirtyWrite => rfl

/-! ### The edges of the strobes -/

theorem State.rqstbLeading_of_idle (h : s.served = true) (idle : s.link.phase = .idle) :
    s.rqstbLeading = { s with link := { s.link with rqMark := true, phase := .receiving } } := by
  simp only [State.rqstbLeading, h, if_true, idle]; rfl

/-- R108: a request in hand makes the edge a fault. -/
theorem State.rqstbLeading_of_busy (h : s.served = true)
    (busy : s.link.phase = .handedOn ∨ s.link.phase = .answering) :
    s.rqstbLeading = s.linkFault .strobeWhileBusy := by
  rcases busy with p | p <;> simp only [State.rqstbLeading, h, if_true, p]

theorem State.antakeLeading_of_shown (h : s.served = true) (answering : s.link.phase = .answering)
    (shown : s.link.status = .shown) :
    s.antakeLeading = { s with link := { s.link with anMark := true, status := .taking } } := by
  simp only [State.antakeLeading, h, if_true, answering, shown]; rfl

/-- R109: with no word shown the edge is a fault. -/
theorem State.antakeLeading_of_unshown (h : s.served = true)
    (unshown : s.link.phase ≠ .answering ∨ s.link.status = .held) :
    s.antakeLeading = s.linkFault .takeWithoutAnswer := by
  simp only [State.antakeLeading, h, if_true]
  split
  · next answering shown => simp [answering, shown] at unshown
  · next answering taking => simp [answering, taking] at unshown
  · rfl

/-- R96: RQFULL by the phase. -/
theorem State.rqfull_iff (on : s.opState ≠ .off) : s.rqfull = true ↔ s.link.phase ≠ .idle := by
  simp [State.rqfull, on]

/-- R96: ANRDY by the presentation status. -/
theorem State.anrdy_iff (on : s.opState ≠ .off) :
    s.anrdy = true ↔ s.link.phase = .answering ∧ s.link.status = .shown := by
  simp [State.anrdy, on]

/-! ### Answer words -/

theorem Answer.code_le (a : Answer) : a.code ≤ 30 := by cases a <;> simp [Answer.code]

theorem append_toNat {m n : Nat} (x : BitVec m) (y : BitVec n) : (x ++ y).toNat = 2 ^ n * x.toNat + y.toNat := by
  rw [BitVec.toNat_append, ← Nat.shiftLeft_add_eq_or_of_lt y.isLt, Nat.shiftLeft_eq, Nat.mul_comm]

/-- R97: the result code in bits 15 to 11 and the value in bits 10 to 0. -/
theorem Answer.word_toNat (a : Answer) : a.word.toNat = 2048 * a.code + a.value.toNat := by
  have := a.code_le
  rw [Answer.word, append_toNat, BitVec.toNat_ofNat, Nat.mod_eq_of_lt (by omega)]; rfl

/-- R97: a number of at most 2047 in the value field. -/
theorem Answer.word_toNat_of_value {a : Answer} {n : Nat} (hv : a.value = BitVec.ofNat 11 n) (hn : n ≤ 2047) :
    a.word.toNat = 2048 * a.code + n := by
  rw [a.word_toNat, hv, BitVec.toNat_ofNat, Nat.mod_eq_of_lt (by omega)]

/-- R97, R106: the value field of a TAG. -/
theorem Answer.tag_value_toNat {tag p : Nat} (ht : tag ≤ 15) (hp : p ≤ 127) :
    (Answer.tag tag p).value.toNat = 128 * tag + p := by
  rw [Answer.value, append_toNat, BitVec.toNat_ofNat, BitVec.toNat_ofNat, Nat.mod_eq_of_lt (by omega),
    Nat.mod_eq_of_lt (by omega)]
  rfl

/-! ### The link by its phase -/

theorem Link.sound_of_handedOn {l : Link} (h : l.phase = .handedOn) :
    l.Sound ↔ l.latch.isSome = true ∧ l.answers = [] ∧ l.rqMark = false ∧ l.anMark = false := by
  unfold Link.Sound; rw [h]

/-- R96, R102–R105: what the phase ANSWERING says of the link. -/
structure Link.Presents (l : Link) : Prop where
  latch : l.latch.isSome = true
  rqMark : l.rqMark = false
  two : l.answers.length ≤ 2
  bound : l.position < l.answers.length
  held : l.status = .held ↔ l.answers[l.position]? = some none
  taking : l.status = .taking ↔ l.anMark = true
  word : ∀ a, l.answers[l.position]? = some (some a) → l.an = a.word

theorem Link.Sound.presents {l : Link} (h : l.Sound) (answering : l.phase = .answering) : l.Presents := by
  unfold Link.Sound at h; rw [answering] at h
  obtain ⟨latch, rqMark, two, bound, held, taking, word⟩ := h
  exact ⟨latch, rqMark, two, bound, held, taking, word⟩

theorem Link.Presents.sound {l : Link} (h : l.Presents) (answering : l.phase = .answering) : l.Sound := by
  unfold Link.Sound; rw [answering]
  exact ⟨h.latch, h.rqMark, h.two, h.bound, h.held, h.taking, h.word⟩

/-- R99: with the acceptance mark of /RQSTB set, nothing is latched and nothing is presented. -/
theorem Link.Sound.of_rqMark {l : Link} (h : l.Sound) (mark : l.rqMark = true) :
    l.latch = none ∧ l.answers = [] ∧ l.anMark = false := by
  unfold Link.Sound at h
  split at h <;> simp_all

/-- R103: the acceptance mark of /ANTAKE is set in ANSWERING alone. -/
theorem Link.Sound.answering_of_anMark {l : Link} (h : l.Sound) (mark : l.anMark = true) : l.phase = .answering := by
  unfold Link.Sound at h
  split at h <;> simp_all

/-- R102: positions of an answer stand in ANSWERING alone. -/
theorem Link.Sound.answering_of_answers {l : Link} (h : l.Sound) (nonempty : l.answers ≠ []) :
    l.phase = .answering := by
  unfold Link.Sound at h
  split at h <;> simp_all

/-- R96, R103: in ANSWERING, unless the current word is withheld, the AN lines carry it. -/
theorem Link.Sound.current {l : Link} (h : l.Sound) (answering : l.phase = .answering) (held : l.status ≠ .held) :
    ∃ a, l.answers[l.position]? = some (some a) ∧ l.an = a.word := by
  have presents := h.presents answering
  have bound := presents.bound
  have here := List.getElem?_eq_getElem bound
  cases current : l.answers[l.position] with
  | none => exact absurd (presents.held.2 (current ▸ here)) held
  | some a => exact ⟨a, current ▸ here, presents.word a (current ▸ here)⟩

/-! ### What a decision makes of the link -/

/-- R100–R102: all that its block makes of a request handed on: it waits on (logs 17, 25), it is answered by one word,
it opens an exchange, or its answer is withheld. -/
inductive Link.Decided (l : Link) : Link → Prop
  | waits : l.Decided l
  | answered (a : Answer) : l.Decided (l.answer a)
  | opened (a : Answer) : l.Decided (l.answerOpening a)
  | withheld : l.Decided l.withhold

theorem State.openExchange_link (s : State) (m : Movement) :
    (s.openExchange m).link = s.link.answerOpening (s.openingWord m) := by
  simp [State.openExchange]

theorem State.withhold_link (s : State) (m : Movement) (w : Withheld) :
    (s.withhold m w).link = s.link.withhold := by
  simp [State.withhold]

theorem State.openExchange_decided (s : State) (m : Movement) : s.link.Decided (s.openExchange m).link :=
  s.openExchange_link m ▸ .opened _

theorem State.claim_answer_decided (s : State) (k : Slot) (new : Record) (c : CommitClass) (a : Answer) :
    s.link.Decided ((s.claim k new c).answer a).link := by
  rw [State.answer_link, State.claim_link]; exact .answered a

theorem State.decideCall_decided (s : State) (n : Nat) : s.link.Decided (s.decideCall n).link := by
  unfold State.decideCall
  split <;> [exact .answered _; skip]
  split <;> [exact .answered _; skip]
  split <;> [exact .answered _; exact .answered _; exact .answered _; exact .answered _; skip]
  split <;> [exact .answered _; exact s.openExchange_decided _]

theorem State.decidePutaway_decided (s : State) : s.link.Decided s.decidePutaway.link := by
  unfold State.decidePutaway
  split <;> [exact .answered _; skip]
  split <;> [exact .answered _; exact .answered _; exact .waits; skip]
  split <;> [exact .answered _; exact s.openExchange_decided _]

theorem State.decideDone_decided (s : State) (tag : Nat) : s.link.Decided (s.decideDone tag).link := by
  unfold State.decideDone
  split <;> [exact .answered _; skip]
  split <;> [skip; exact .waits]
  rename_i x _ _
  have link : ((s.completeMove x.movement).withhold x.movement (.doneOk tag)).link = s.link.withhold := by
    rw [State.withhold_link, State.completeMove_link]
  exact link ▸ .withheld

theorem State.decideAbandon_decided (s : State) (tag : Nat) : s.link.Decided (s.decideAbandon tag).link := by
  unfold State.decideAbandon
  split <;> [exact .answered _; skip]
  split <;> [skip; exact .waits]
  rename_i x _ _
  have link : ((s.revert x.movement).withhold x.movement (.abandoned tag)).link = s.link.withhold := by
    rw [State.withhold_link, State.revert_link]
  exact link ▸ .withheld

theorem State.decideCharge_decided (s : State) (n : Nat) : s.link.Decided (s.decideCharge n).link := by
  unfold State.decideCharge
  split <;> [exact .answered _; exact .answered _; exact .answered _; exact s.claim_answer_decided _ _ _ _]

theorem State.decideDamage_decided (s : State) : s.link.Decided s.decideDamage.link := by
  unfold State.decideDamage
  split <;> [exact .answered _; exact .answered _; exact .answered _; exact s.claim_answer_decided _ _ _ _]

theorem State.decideRequest_decided (s : State) (kind : BitVec 4) (operand : BitVec 12) :
    s.link.Decided (s.decideRequest kind operand).link := by
  unfold State.decideRequest
  split
  · exact s.decideCall_decided _
  · exact s.decideDone_decided _
  · exact s.decideAbandon_decided _
  · exact s.decideCharge_decided _
  · exact s.decideDamage_decided
  · exact s.decidePutaway_decided
  · exact .answered _
  · exact .waits

/-- R99, R100: the link in the phase HANDED_ON with the word `w`. -/
def Link.handOn (l : Link) (w : LinkWord) : Link :=
  { l with phase := .handedOn, latch := some w, rqMark := false, leftRunning := false }

/-- R98, R100: a word that is latched is handed on, and stands so, is decided, or is answered by the link itself. -/
theorem State.latchRequest_link (s : State) (kind : BitVec 4) (operand : BitVec 12) (take : Timing) :
    let u := s.latchRequest kind operand take (fun u => u.decideRequest kind operand)
    u.link = s.link ∨ s.link.rqMark = true ∧ (s.link.handOn (requestWord kind operand)).Decided u.link := by
  unfold State.latchRequest
  dsimp only
  split <;> [skip; exact .inl rfl]
  rename_i accepted
  refine .inr ⟨(Bool.and_eq_true_iff.1 accepted).2, ?_⟩
  split <;> [exact .answered _; skip]
  split <;> [skip; exact .answered _]
  cases take with
  | inStep => exact State.decideRequest_decided (s.setLink (s.link.handOn (requestWord kind operand))) kind operand
  | later => exact .waits

theorem State.takeHandedOn_link (s : State) :
    s.takeHandedOn.link = s.link ∨ s.link.phase = .handedOn ∧ s.link.Decided s.takeHandedOn.link := by
  unfold State.takeHandedOn
  split <;> [skip; exact .inl rfl]
  rename_i handed
  split <;> [skip; exact .inl rfl]
  refine .inr ⟨handed, ?_⟩
  split <;> [exact .answered _; exact s.decideRequest_decided _ _]

/-! ### The take of a request and the take of an answer -/

/-- Log 3: a request that fits is handed on, and its take decides as a take in the step of the latch. -/
theorem exec_request_later {c d : Instr} {kind : BitVec 4} {operand : BitVec 12} (ha : s.RequestArrives)
    (fits : requestFits kind operand)
    (later : ∀ s, exec c s = .next (s.latchRequest kind operand .later (fun u => u.decideRequest kind operand)))
    (inStep : ∀ s, exec d s = .next (s.latchRequest kind operand .inStep (fun u => u.decideRequest kind operand))) :
    exec c s = .next (s.handed kind operand) ∧
      ∃ t, exec d s = .next t ∧ exec .requestTakeByBlock (s.handed kind operand) = .next t := by
  refine ⟨?_, (s.handed kind operand).decideRequest kind operand, ?_, ?_⟩
  · rw [later, State.latchRequest_arrives s ha _ _ _ _ fits]
  · rw [inStep, State.latchRequest_arrives s ha _ _ _ _ fits]
  · exact congrArg Host.Outcome.next (State.takeHandedOn_handed s ha kind operand)

/-- R101: the take in RUNNING of a request handed on since the last fall. -/
theorem State.takeHandedOn_of_running {w : LinkWord} (handed : s.link.phase = .handedOn)
    (running : s.opState = .running) (stayed : s.link.leftRunning = false) (hw : s.link.latch = some w) :
    s.takeHandedOn = s.decideRequest (requestKind w) (requestOperand w) := by
  simp [State.takeHandedOn, handed, running, stayed, hw]

/-- R101: the take of a request that a fall came upon. -/
theorem State.takeHandedOn_of_fallen {w : LinkWord} (handed : s.link.phase = .handedOn) (hw : s.link.latch = some w)
    (fallen : s.opState ≠ .running ∨ s.link.leftRunning = true) : s.takeHandedOn = s.answer .powerLow := by
  simp only [State.takeHandedOn, if_pos handed, hw, if_pos fallen]

/-- R84, R104: the take of the current word, with the report that the take of word 2 makes. -/
theorem State.takeAnswer_of_marked (served : s.served = true) (mark : s.link.anMark = true) : s.takeAnswer =
    if s.link.position = 1 then (s.setLink s.link.takeWord).reportTake else s.setLink s.link.takeWord := by
  simp only [State.takeAnswer, served, mark, Bool.and_self, if_true]

theorem State.reportTake_of_offered {x : OpenExchange} (hx : s.exchange = .offered x) :
    s.reportTake = { s with exchange := .reserved x s.timeout } := by
  simp only [State.reportTake, hx]

theorem State.reportTake_of_not_offered (hx : ∀ x, s.exchange ≠ .offered x) : s.reportTake = s := by
  unfold State.reportTake
  split
  · next x e => exact absurd e (hx x)
  · rfl

theorem State.reportTake_eq (s : State) : s.reportTake = { s with exchange := s.reportTake.exchange } := by
  unfold State.reportTake; split <;> rfl

/-! ### The commands that leave the link -/

@[simp] theorem State.reportTake_link (s : State) : s.reportTake.link = s.link := by
  unfold State.reportTake; split <;> rfl

@[simp] theorem State.expireTimer_link (s : State) : s.expireTimer.link = s.link := by
  unfold State.expireTimer; (repeat' split) <;> simp

/-- R117: a command write leaves the link when the body of the command does. -/
theorem State.issue_link {b : State → State} (hb : ∀ u, (b u).link = u.link) (s : State) (code : Byte) :
    (s.issue code b).link = s.link := by
  unfold State.issue; (repeat' split) <;> simp [hb]

theorem State.whenRunning_link {b : State → State} (hb : ∀ u, (b u).link = u.link) (s : State) :
    (s.whenRunning b).link = s.link := by
  unfold State.whenRunning; split <;> simp [hb]

@[simp] theorem State.takeFetch_link (s : State) : s.takeFetch.link = s.link := by
  unfold State.takeFetch; (repeat' split) <;> simp

@[simp] theorem State.takeNew_link (s : State) : s.takeNew.link = s.link := by
  unfold State.takeNew; (repeat' split) <;> simp

@[simp] theorem State.takeStore_link (s : State) : s.takeStore.link = s.link := by
  unfold State.takeStore; (repeat' split) <;> simp

@[simp] theorem State.takeDiscard_link (s : State) : s.takeDiscard.link = s.link := rfl

@[simp] theorem State.takeRelease_link (s : State) : s.takeRelease.link = s.link := by
  unfold State.takeRelease; (repeat' split) <;> simp

@[simp] theorem State.takeLocate_link (s : State) : s.takeLocate.link = s.link := by
  unfold State.takeLocate; dsimp only; (repeat' split) <;> simp

@[simp] theorem State.takeResolveMoved_link (s : State) : s.takeResolveMoved.link = s.link := by
  unfold State.takeResolveMoved; split <;> simp

@[simp] theorem State.takeResolveNotMoved_link (s : State) : s.takeResolveNotMoved.link = s.link := by
  unfold State.takeResolveNotMoved; split <;> simp

@[simp] theorem State.takeDeclareSpindleEmpty_link (s : State) : s.takeDeclareSpindleEmpty.link = s.link := by
  unfold State.takeDeclareSpindleEmpty; split <;> simp

@[simp] theorem State.takeRetryStore_link (s : State) : s.takeRetryStore.link = s.link := by
  unfold State.takeRetryStore; (repeat' split) <;> simp

@[simp] theorem State.takeFlush_link (s : State) : s.takeFlush.link = s.link := by
  unfold State.takeFlush; split <;> simp

@[simp] theorem State.completeFlush_link (s : State) : s.completeFlush.link = s.link := by
  unfold State.completeFlush; split <;> simp

@[simp] theorem State.takeConfigStore_link (s : State) : s.takeConfigStore.link = s.link := by
  unfold State.takeConfigStore; (repeat' split) <;> simp

@[simp] theorem State.writeCommand_link (s : State) (code : Byte) : (s.writeCommand code).link = s.link := by
  unfold State.writeCommand
  split <;> exact State.issue_link (by simp [State.whenRunning_link]) _ _

@[simp] theorem State.writeStatus_link (s : State) (d : Byte) : (s.writeStatus d).link = s.link := by
  unfold State.writeStatus; split <;> rfl

@[simp] theorem State.writeIntPending_link (s : State) (d : Byte) : (s.writeIntPending d).link = s.link := by
  unfold State.writeIntPending; split <;> rfl

@[simp] theorem State.writeIntEnable_link (s : State) (d : Byte) : (s.writeIntEnable d).link = s.link := by
  unfold State.writeIntEnable; split <;> rfl

@[simp] theorem State.writeWindow_link (s : State) (a : BitVec 10) (d : Byte) : (s.writeWindow a d).link = s.link := by
  unfold State.writeWindow; (repeat' split) <;> simp

@[simp] theorem State.writeHold_link (s : State) (k : Slot) (v : Bool) : (s.writeHold k v).link = s.link := by
  unfold State.writeHold; split <;> simp

@[simp] theorem State.writeMeasure_link (s : State) (k : Slot) (v : Bool) : (s.writeMeasure k v).link = s.link := by
  unfold State.writeMeasure; split <;> simp

@[simp] theorem State.writeAttn_link (s : State) (k : Slot) (v : Bool) : (s.writeAttn k v).link = s.link := by
  unfold State.writeAttn; split <;> simp

@[simp] theorem State.endSettle_link (s : State) : s.endSettle.link = s.link := by
  unfold State.endSettle; (repeat' split) <;> simp

@[simp] theorem State.completeScan_link (s : State) : s.completeScan.link = s.link := by
  unfold State.completeScan; split
  · exact State.startFlight_link _
  · rfl

/-! ### All that a command makes of the link -/

/-- All that the command `c` makes of the link, from the state `s` to the state `t`. -/
inductive State.LinkMoves (s : State) (c : Instr) (t : State) : Prop
  /-- The link stands, but for its fault kind (R108–R110) and its mark of a fall (R101; log 15). -/
  | kept (f : LinkFault) (left : Bool) (h : t.link = { s.link with fault := f, leftRunning := left })
  /-- An accepted leading edge of /RQSTB (R99). -/
  | strobed (idle : s.link.phase = .idle) (h : t.link = { s.link with rqMark := true, phase := .receiving })
  /-- An accepted trailing edge of /RQSTB (R100). -/
  | latched (w : LinkWord) (mark : s.link.rqMark = true) (h : (s.link.handOn w).Decided t.link)
  /-- The take of a request by its block (R101). -/
  | decided (handed : s.link.phase = .handedOn) (h : s.link.Decided t.link)
  /-- An accepted leading edge of /ANTAKE (R103). -/
  | taking (answering : s.link.phase = .answering) (shown : s.link.status = .shown)
      (h : t.link = { s.link with anMark := true, status := .taking })
  /-- An accepted trailing edge of /ANTAKE (R104). -/
  | taken (hc : c = .answerTake) (mark : s.link.anMark = true) (h : t.link = s.link.takeWord)
  /-- The release of a withheld answer (R105). -/
  | filled (a : Answer) (h : t.link = s.link.fill a)
  /-- /RESET (R111), or a passage to OFF or out of it (R167). -/
  | cleared (why : c = .reset ∨ s.opState = .off ∨ t.opState = .off) (h : t.link = Link.cleared)

theorem State.LinkMoves.of_eq {c : Instr} (h : t.link = s.link) : s.LinkMoves c t := .kept _ _ h

theorem State.rqstbLeading_linkMoves (s : State) (c : Instr) : s.LinkMoves c s.rqstbLeading := by
  unfold State.rqstbLeading
  split <;> [skip; exact .of_eq rfl]
  split
  · next idle => exact .strobed idle rfl
  · exact .of_eq rfl
  · exact .kept _ _ rfl
  · exact .kept _ _ rfl

theorem State.antakeLeading_linkMoves (s : State) (c : Instr) : s.LinkMoves c s.antakeLeading := by
  unfold State.antakeLeading
  split <;> [skip; exact .of_eq rfl]
  split
  · next answering shown => exact .taking answering shown rfl
  · exact .of_eq rfl
  · exact .kept _ _ rfl

theorem State.takeAnswer_linkMoves (s : State) : s.LinkMoves .answerTake s.takeAnswer := by
  unfold State.takeAnswer
  split <;> [skip; exact .of_eq rfl]
  rename_i accepted
  refine .taken rfl (Bool.and_eq_true_iff.1 accepted).2 ?_
  dsimp only
  split <;> simp

/-- R82, R89: the answer that replaces a withheld one fills its position. -/
theorem State.replaceAnswer_link (s : State) (w : Withheld) (k : Slot) :
    ∃ a, (s.replaceAnswer w k).link = s.link.fill a := by
  unfold State.replaceAnswer
  split
  · refine ⟨.storeFault k.val, ?_⟩
    dsimp only
    split <;> simp
  · exact ⟨_, rfl⟩
  · exact ⟨_, rfl⟩

/-- R105: a release leaves the link, or fills the withheld position. -/
theorem State.releaseRecord_link (s : State) :
    s.releaseRecord.link = s.link ∨ ∃ a, s.releaseRecord.link = s.link.fill a := by
  rcases s.releaseRecord_cases with e | ⟨-, r, -, ⟨k, -, e⟩ | ⟨-, -, e⟩⟩ <;> rw [e]
  · exact .inl rfl
  · exact .inr (s.replaceAnswer_link r.withheld k)
  · exact .inr ⟨_, rfl⟩

theorem State.releaseRecord_linkMoves {u : State} (hu : u.link = s.link) (c : Instr) :
    s.LinkMoves c u.releaseRecord := by
  rcases u.releaseRecord_link with same | ⟨a, filled⟩
  · exact .of_eq (same.trans hu)
  · exact .filled a (hu ▸ filled)

theorem State.assertReset_linkMoves (s : State) : s.LinkMoves .reset s.assertReset := by
  unfold State.assertReset
  split <;> [exact .of_eq rfl; skip]
  split <;> [exact .of_eq rfl; exact .cleared (.inl rfl) rfl]

/-- R165: the passage to FROZEN marks a request handed on, and leaves the rest of the link. -/
theorem State.freeze_link (s : State) : s.freeze.link =
    { s.link with leftRunning := s.link.leftRunning || s.link.phase == .handedOn } := by
  simp [State.freeze]

theorem State.supplyRises_linkMoves (s : State) (c : Instr) : s.LinkMoves c s.supplyRises := by
  unfold State.supplyRises
  split <;> [skip; exact .of_eq rfl; exact .of_eq rfl; exact .of_eq rfl; exact .of_eq rfl]
  rename_i off
  exact .cleared (.inr (.inl off)) rfl

theorem State.supplyFalls_linkMoves (s : State) (c : Instr) : s.LinkMoves c s.supplyFalls := by
  unfold State.supplyFalls
  split <;> [exact .of_eq rfl; exact .of_eq rfl; exact .of_eq rfl; exact .kept _ _ s.freeze_link; exact .of_eq rfl]

theorem State.losePower_linkMoves (s : State) (c : Instr) : s.LinkMoves c s.losePower := by
  have lost : s.LinkMoves c (s.volatileCleared .off false) := .cleared (.inr (.inr rfl)) rfl
  unfold State.losePower
  split <;> [exact .of_eq rfl; exact .of_eq rfl; exact lost; exact lost; exact lost]

theorem exec_request_linkMoves {c : Instr} {word : BitVec 4 × BitVec 12} (hr : request? c = some word)
    (h : exec c s = .next t) : s.LinkMoves c t := by
  obtain ⟨take, run⟩ := exec_request hr
  rw [← Host.Outcome.next.inj ((run s).symm.trans h)]
  rcases s.latchRequest_link word.1 word.2 take with same | ⟨mark, decided⟩
  · exact .of_eq same
  · exact .latched _ mark decided

theorem exec_hostCode_linkMoves {c : Instr} {code : Byte} (hc : hostCode? c = some code) (h : exec c s = .next t) :
    s.LinkMoves c t := by
  rw [← Host.Outcome.next.inj ((exec_hostCode hc s).symm.trans h)]
  exact .of_eq (s.writeCommand_link code)

/-- The link is moved by the requests, the edges, the takes, the releases and the supply, and left by all other
commands. -/
theorem exec_linkMoves {c : Instr} (h : exec c s = .next t) : s.LinkMoves c t := by
  cases c
  case call | putaway | done | abandon | charge | damage | probe | unknownRequest => exact exec_request_linkMoves rfl h
  case fetch | new | store | discard | release | locate | resolveMoved | resolveNotMoved | declareSpindleEmpty |
      retryStore | flush | configStore | unknownCommand => exact exec_hostCode_linkMoves rfl h
  all_goals rw [← Host.Outcome.next.inj h]
  case rqstbLeadingEdge | strobeWhileBusy => exact s.rqstbLeading_linkMoves _
  case antakeLeadingEdge | takeWithoutAnswer => exact s.antakeLeading_linkMoves _
  case answerTake => exact s.takeAnswer_linkMoves
  case requestTakeByBlock =>
    rcases s.takeHandedOn_link with same | ⟨handed, decided⟩
    · exact .of_eq same
    · exact .decided handed decided
  case answerRelease => exact State.releaseRecord_linkMoves rfl _
  case commitAttempt v notice =>
    cases notice with
    | inStep => exact State.releaseRecord_linkMoves (s.endAttempt_link v) _
    | later => exact .of_eq (s.endAttempt_link v)
  case reset => exact s.assertReset_linkMoves
  case vccRise => exact s.supplyRises_linkMoves _
  case vccFall => exact s.supplyFalls_linkMoves _
  case powerOff => exact s.losePower_linkMoves _
  all_goals exact .of_eq (by simp)

/-! ### What keeps the link sound -/

/-- R99, R100: an accepted word is handed on over a link that presents nothing. -/
theorem Link.Sound.handOn {l : Link} (h : l.Sound) (mark : l.rqMark = true) (w : LinkWord) : (l.handOn w).Sound := by
  obtain ⟨-, answers, anMark⟩ := h.of_rqMark mark
  exact (Link.sound_of_handedOn rfl).2 ⟨rfl, answers, rfl, anMark⟩

/-- R102: a decision presents its first word, or withholds its only one. -/
theorem Link.Sound.decided {l m : Link} (h : l.Sound) (handed : l.phase = .handedOn) (d : l.Decided m) : m.Sound := by
  obtain ⟨latch, -, rqMark, anMark⟩ := (Link.sound_of_handedOn handed).1 h
  cases d with
  | waits => exact h
  | answered a =>
    refine Link.Presents.sound ⟨latch, rqMark, ?_, ?_, ?_, ?_, ?_⟩ rfl <;> simp [anMark]
  | opened a =>
    refine Link.Presents.sound ⟨latch, rqMark, ?_, ?_, ?_, ?_, ?_⟩ rfl <;> simp [Link.answerOpening, anMark]
  | withheld =>
    refine Link.Presents.sound ⟨latch, rqMark, ?_, ?_, ?_, ?_, ?_⟩ rfl <;> simp [Link.withhold, anMark]

theorem Link.Sound.strobed {l : Link} (h : l.Sound) (idle : l.phase = .idle) :
    Link.Sound { l with rqMark := true, phase := .receiving } := by
  unfold Link.Sound at h; rw [idle] at h
  obtain ⟨latch, answers, -, anMark⟩ := h
  exact ⟨latch, answers, rfl, anMark⟩

/-- R103: the word that is being taken is the word that was shown. -/
theorem Link.Sound.taking {l : Link} (h : l.Sound) (answering : l.phase = .answering) (shown : l.status = .shown) :
    Link.Sound { l with anMark := true, status := .taking } := by
  obtain ⟨latch, rqMark, two, bound, held, -, word⟩ := h.presents answering
  rw [shown] at held
  exact Link.Presents.sound ⟨latch, rqMark, two, bound, by simpa using held, by simp, word⟩ answering

/-- R104: a take leads to a further position, SHOWN or HELD as its word is, or to IDLE. -/
theorem Link.Sound.takeWord {l : Link} (h : l.Sound) (mark : l.anMark = true) : l.takeWord.Sound := by
  have answering := h.answering_of_anMark mark
  obtain ⟨latch, rqMark, two, -, -, -, -⟩ := h.presents answering
  unfold Link.takeWord
  split
  · next a further =>
    have bound := (List.getElem?_eq_some_iff.1 further).1
    exact Link.Presents.sound ⟨latch, rqMark, two, bound, by simp [further], by simp, by simp [further]⟩ answering
  · next further =>
    have bound := (List.getElem?_eq_some_iff.1 further).1
    exact Link.Presents.sound ⟨latch, rqMark, two, bound, by simp [further], by simp, by simp [further]⟩ answering
  · exact ⟨rfl, rfl, rqMark, rfl⟩

/-- R105: a fill presents its word at the current position, which was HELD, or leaves the current word. -/
theorem Link.Sound.fill {l : Link} (h : l.Sound) (a : Answer) : (l.fill a).Sound := by
  unfold Link.fill
  split <;> [skip; exact h]
  rename_i last
  have answering := h.answering_of_answers (by intro e; simp [e] at last)
  obtain ⟨latch, rqMark, two, bound, held, taking, word⟩ := h.presents answering
  have length : (l.answers.dropLast ++ [some a]).length = l.answers.length := by simp; omega
  split
  · next current =>
    have filled : (l.answers.dropLast ++ [some a])[l.position]? = some (some a) := by
      rw [List.getElem?_append_right (by simp; omega)]; simp [← current]
    have was : l.status = .held := held.2 (by rw [← last, List.getLast?_eq_getElem?]; congr; omega)
    have unmarked : l.anMark = false := by simpa [was] using taking
    exact Link.Presents.sound ⟨latch, rqMark, length ▸ two, length ▸ bound, by simp [filled], by simp [unmarked],
      by simp [filled]⟩ answering
  · next before =>
    have same : (l.answers.dropLast ++ [some a])[l.position]? = l.answers[l.position]? := by
      rw [List.getElem?_append_left (by simp; omega), List.getElem?_dropLast, if_pos (by omega)]
    exact Link.Presents.sound ⟨latch, rqMark, length ▸ two, length ▸ bound, by rw [same]; exact held, taking,
      by rw [same]; exact word⟩ answering

theorem State.LinkMoves.sound {c : Instr} (m : s.LinkMoves c t) (h : s.link.Sound) : t.link.Sound := by
  cases m with
  | kept f left link => rw [link]; exact h
  | strobed idle link => rw [link]; exact h.strobed idle
  | latched w mark d => exact (h.handOn mark w).decided rfl d
  | decided handed d => exact h.decided handed d
  | taking answering shown link => rw [link]; exact h.taking answering shown
  | taken _ mark link => rw [link]; exact h.takeWord mark
  | filled a link => rw [link]; exact h.fill a
  | cleared _ link => rw [link]; exact Link.cleared_sound

/-! ### What keeps the request in hand -/

theorem Link.Decided.latch {l m : Link} (d : l.Decided m) : m.latch = l.latch := by cases d <;> rfl

theorem Link.fill_latch (l : Link) (a : Answer) : (l.fill a).latch = l.latch := by
  unfold Link.fill; (repeat' split) <;> rfl

/-- R104: a take keeps the request in hand, but for that of the last word. -/
theorem Link.Sound.takeWord_latch {l : Link} (h : l.Sound) (mark : l.anMark = true) :
    l.takeWord.latch = l.latch ∨ l.takeWord.latch = none ∧ l.position + 1 = l.answers.length := by
  have bound := (h.presents (h.answering_of_anMark mark)).bound
  unfold Link.takeWord
  split
  · exact .inl rfl
  · exact .inl rfl
  · next last =>
    have := List.getElem?_eq_none_iff.1 last
    exact .inr ⟨rfl, by omega⟩

end

/-! ### The statements -/

/-- Settles O58: each move of the link keeps it sound. -/
theorem stepKeepsTheLink : Obligations.StepKeepsTheLink := by
  intro s t h he
  unfold step at he
  split at he
  · rw [← Host.Outcome.next.inj he]; exact h
  · exact (exec_linkMoves he).sound h

/-- Settles O13: a word in hand shuts out a further one, and every other move keeps it, but for /RESET, the passage to
OFF and the take of its last word. -/
theorem oneRequestInHand : Obligations.OneRequestInHand := by
  intro c s t w h on he hw
  cases exec_linkMoves he with
  | kept f left link => rw [link]; exact .inl hw
  | strobed idle link => rw [link]; exact .inl hw
  | latched v mark d =>
    have none := (h.of_rqMark mark).1
    rw [hw] at none; cases none
  | decided handed d => exact .inl (d.latch.trans hw)
  | taking answering shown link => rw [link]; exact .inl hw
  | taken hc mark link =>
    rw [link]
    rcases h.takeWord_latch mark with kept | ⟨gone, last⟩
    · exact .inl (kept.trans hw)
    · exact .inr ⟨gone, .inr (.inr ⟨hc, mark, last⟩)⟩
  | filled a link => rw [link]; exact .inl ((s.link.fill_latch a).trans hw)
  | cleared why link =>
    rw [link]
    rcases why with reset | off | off
    · exact .inr ⟨rfl, .inl reset⟩
    · exact absurd off on
    · exact .inr ⟨rfl, .inr (.inl off)⟩

/-- Settles O7: the tests of the decode, outside RUNNING and in it. -/
theorem linkAnswersWhatItRefuses : Obligations.LinkAnswersWhatItRefuses := by
  intro c kind operand s hr low mark
  obtain ⟨take, run⟩ := exec_request hr
  rw [run]
  have refused {op : OpState} {a : Answer} (hop : op.linkAnswer = some a) (h : s.opState = op) :=
    s.latchRequest_not_running kind operand take (fun u => u.decideRequest kind operand) a low mark
      (by rintro off; rw [← h, off] at hop; cases hop) (h ▸ hop)
  refine ⟨fun h => congrArg _ (refused rfl h), fun h => congrArg _ (refused rfl h),
    fun h => congrArg _ (refused rfl h), fun running misfit => ?_⟩
  have rejected : requestAccepted kind operand = false := by
    rwa [← requestAccepted_iff, Bool.not_eq_true] at misfit
  rw [s.latchRequest_misfit _ _ _ _ low mark running rejected]

/-- Settles O8: the hand-on and the take for each kind, and the two takes written out. -/
theorem requestTakenLaterDecidesAlike : Obligations.RequestTakenLaterDecidesAlike := by
  refine ⟨fun s o ha => ⟨fun fits => ?_, fun fits => ?_, ?_, fun fits => ?_, fun fits => ?_⟩,
    fun s k handed running stayed hk => ⟨fun hw => ?_, fun hw => ?_⟩⟩
  · exact exec_request_later ha fits (fun _ => rfl) fun _ => rfl
  · exact exec_request_later ha fits (fun _ => rfl) fun _ => rfl
  · exact exec_request_later ha (charge_fits o) (fun _ => rfl) fun _ => rfl
  · exact exec_request_later ha fits (fun _ => rfl) fun _ => rfl
  · exact exec_request_later ha fits (fun _ => rfl) fun _ => rfl
  · have taken : s.takeHandedOn = s.answer s.probeSpindle :=
      State.takeHandedOn_of_running handed running stayed hw
    have holds : s.probeSpindle = .spindleHolds (s.record k).tool := by simp only [State.probeSpindle, hk]
    refine congrArg Host.Outcome.next ?_
    rw [taken, holds]; rfl
  · have taken : s.takeHandedOn = s.decideDamage := State.takeHandedOn_of_running handed running stayed hw
    rw [s.decideDamage_holds k hk] at taken
    refine ⟨_, congrArg Host.Outcome.next taken, State.claimed_of_claim _ _ _ _ _ rfl rfl, ?_, ?_⟩
    · rw [State.answer_link, State.claim_link]; rfl
    · apply State.ext <;> simp

/-- Settles O9: the take of a request that a fall came upon, and what the fall leaves of the link. -/
theorem handedOnRequestAfterAFall : Obligations.HandedOnRequestAfterAFall := by
  refine ⟨fun s w handed hw fallen => ?_, fun s handed running => ?_⟩
  · refine congrArg Host.Outcome.next ?_
    rw [State.takeHandedOn_of_fallen handed hw fallen, ← hw]; rfl
  · have falls : s.supplyFalls = s.freeze := by simp only [State.supplyFalls, running]
    exact ⟨_, congrArg Host.Outcome.next falls, by simp [s.freeze_link, handed]⟩

/-- Settles O12: the three ends of a take for the link, and the report of the take of word 2 for the exchange. -/
theorem answerTakeAdvances : Obligations.AnswerTakeAdvances := by
  intro s on low mark
  have taken := State.takeAnswer_of_marked (s.served_of_on on low) mark
  have link : s.takeAnswer.link = s.link.takeWord := by rw [taken]; split <;> simp
  refine ⟨_, rfl, fun a h => ?_, fun h => ?_, fun h => ?_, fun x c second hx hc => ?_, fun other => ?_, ?_⟩
  · simp only [link, Link.takeWord, h]
  · simp only [link, Link.takeWord, h]
  · simp only [link, Link.takeWord, h]
  · have timeout : (s.setLink s.link.takeWord).timeout = c.timeout := by simp only [State.timeout, State.setLink, hc]
    rw [taken, if_pos second, State.reportTake_of_offered (s := s.setLink s.link.takeWord) hx, timeout]
  · rw [taken]
    split
    · next second =>
      have none : ∀ x, (s.setLink s.link.takeWord).exchange ≠ .offered x := other.resolve_left (not_not.2 second)
      rw [State.reportTake_of_not_offered none]; rfl
    · rfl
  · rw [taken]
    split
    · rw [State.reportTake_eq]; rfl
    · rfl

/-- Settles O6: what is not served, and what no acceptance mark lets in. -/
theorem ignoredInputs : Obligations.IgnoredInputs := by
  refine ⟨fun c s down input => ?_, fun c kind operand s hr mark => ?_, fun s mark => ?_⟩
  · have unserved := s.served_eq_false_iff.2 down
    rcases input with edge | command | write
    · exact exec_strobeEdge_of_unserved unserved edge
    · obtain ⟨code, hc⟩ := Option.isSome_iff_exists.1 command
      rw [exec_hostCode hc, State.writeCommand_of_unserved unserved]
    · exact exec_plainHostWrite_of_unserved unserved write
  · obtain ⟨take, run⟩ := exec_request hr
    rw [run, s.latchRequest_not_accepted mark]
  · refine congrArg Host.Outcome.next ?_
    simp [State.takeAnswer, mark]

/-- Settles O10: the edge by the phase. -/
theorem requestStrobeIsJudgedByThePhase : Obligations.RequestStrobeIsJudgedByThePhase := by
  intro c s hc on low
  have run : exec c s = .next s.rqstbLeading := by rcases hc with rfl | rfl <;> rfl
  have served := s.served_of_on on low
  refine ⟨fun idle => ?_, fun busy => ?_, s.rqfull_iff on⟩
  · rw [run, State.rqstbLeading_of_idle served idle]
  · rw [run, State.rqstbLeading_of_busy served busy]; rfl

/-- Settles O11: the edge by the status, the lines by the sound link, and the words by their code and value. -/
theorem answerStrobeIsJudgedByTheStatus : Obligations.AnswerStrobeIsJudgedByTheStatus := by
  refine ⟨fun c s hc on low => ?_, fun n hn a code h => ?_, fun a code h => ?_, fun tag p ht hp => ?_⟩
  · have run : exec c s = .next s.antakeLeading := by rcases hc with rfl | rfl <;> rfl
    have served := s.served_of_on on low
    refine ⟨fun answering shown => ?_, fun unshown => ?_, s.anrdy_iff on, fun sound answering held => ?_⟩
    · rw [run, State.antakeLeading_of_shown served answering shown]
    · rw [run, State.antakeLeading_of_unshown served unshown]; rfl
    · rw [State.anLines, if_neg on]; exact sound.current answering held
  · have fields : a.code = code ∧ a.value = BitVec.ofNat 11 n := by
      refine (?_ : ∀ e ∈ _, e.1.code = e.2 ∧ e.1.value = BitVec.ofNat 11 n) (a, code) h
      simp [Answer.code, Answer.value]
    rw [Answer.word_toNat_of_value fields.2 hn, fields.1]
  · have fields : a.code = code ∧ a.value = BitVec.ofNat 11 0 := by
      refine (?_ : ∀ e ∈ _, e.1.code = e.2 ∧ e.1.value = BitVec.ofNat 11 0) (a, code) h
      simp [Answer.code, Answer.value]
    rw [Answer.word_toNat_of_value fields.2 (Nat.zero_le _), fields.1]; rfl
  · rw [Answer.word_toNat, Answer.tag_value_toNat ht hp, ← Nat.add_assoc]; rfl

end Sys2Proof.Machine

/-! ## The host commands over the work record, RELEASE, RETRY_STORE and FLUSH (O36–O39, O41, O44, O45) -/

namespace Sys2Proof.Machine

section
variable {s : State} {k : Slot}

/-! ### A command by the state that it meets -/

/-- R117: a command written while BUSY is dropped. -/
theorem State.issue_busy (on : s.opState ≠ .off) (low : s.resetLow = false) (busy : s.host.busy = true) (code : Byte)
    (b : State → State) : s.issue code b = { s with host := { s.host with cmdRefused := true } } := by
  simp [State.issue, s.served_of_on on low, busy]

/-- R117: every code written while BUSY is dropped. -/
theorem State.writeCommand_busy (on : s.opState ≠ .off) (low : s.resetLow = false) (busy : s.host.busy = true)
    (code : Byte) : s.writeCommand code = { s with host := { s.host with cmdRefused := true } } := by
  unfold State.writeCommand; split <;> exact State.issue_busy on low busy code _

/-- R117: a code that names no command. -/
theorem State.writeCommand_unknown (h : s.CommandTaken) {code : Byte} (hc : code = 0 ∨ 13 ≤ code.toNat) :
    s.writeCommand code = s.commandDone code .unknownCommand := by
  have outside : code.toNat = 0 ∨ 13 ≤ code.toNat := hc.imp_left (congrArg BitVec.toNat)
  unfold State.writeCommand
  split
  case h_13 => exact State.issue_taken s h code _
  all_goals omega

/-- R118: the commands that are refused FROZEN outside RUNNING before any other test. -/
theorem exec_refused_frozen {c : Instr} {code : Byte}
    (hc : c ∈ [.new, .release, .resolveMoved, .resolveNotMoved, .declareSpindleEmpty, .retryStore, .configStore])
    (hcode : hostCode? c = some code) (h : s.CommandTaken) (hr : s.opState ≠ .running) :
    exec c s = .next (s.commandDone code .frozen) := by
  simp only [List.mem_cons, List.not_mem_nil, or_false] at hc
  rcases hc with rfl | rfl | rfl | rfl | rfl | rfl | rfl <;> cases hcode <;>
    exact congrArg Host.Outcome.next (State.issue_whenRunning_refused s h hr _ _)

/-- R113: a read of the register window, at an address with A9–A6 at 0. -/
theorem State.readHost_of_on (on : s.opState ≠ .off) {a : BitVec 10} (ha : a.extractLsb' 6 4 = 0) :
    s.readHost (0#1 ++ a) = some (s.windowByte (a.extractLsb' 0 6).toNat) := by
  rw [State.readHost_window, State.readWindow, if_neg on, if_neg (not_not.2 ha)]

/-! ### FETCH, NEW and DISCARD -/

theorem State.takeFetch_of_none (h : s.argSlot? = none) : s.takeFetch = s.complete .range := by
  rw [State.takeFetch, h]

theorem State.takeFetch_of_vacant (h : s.argSlot? = some k) (hv : (s.record k).condition = .vacant) :
    s.takeFetch = s.complete .isVacant := by
  simp [State.takeFetch, h, Record.occupied, hv]

theorem State.takeFetch_of_occupied (h : s.argSlot? = some k) (hv : (s.record k).condition ≠ .vacant) :
    s.takeFetch = (s.fillWork k).complete .ok := by
  simp [State.takeFetch, h, Record.occupied, hv]

theorem State.takeNew_of_none (h : s.argSlot? = none) : s.takeNew = s.complete .range := by
  rw [State.takeNew, h]

theorem State.takeNew_of_occupied (h : s.argSlot? = some k) (hv : (s.record k).condition ≠ .vacant) :
    s.takeNew = s.complete .notVacant := by
  simp [State.takeNew, h, Record.occupied, hv]

theorem State.takeNew_of_vacant (h : s.argSlot? = some k) (hv : (s.record k).condition = .vacant) :
    s.takeNew = State.complete
      { s with host := { s.host with workState := .new k, work := WorkFields.newDefaults } } .ok := by
  simp [State.takeNew, h, Record.occupied, hv]

theorem exec_fetch_taken (h : s.CommandTaken) : exec .fetch s = .next (s.withCommand 1).takeFetch :=
  congrArg _ (State.issue_taken s h 1 _)

theorem exec_new_taken (h : s.CommandTaken) (hr : s.opState = .running) :
    exec .new s = .next (s.withCommand 2).takeNew :=
  congrArg _ (State.issue_whenRunning s h hr 2 _)

/-! ### STORE -/

theorem exec_store_taken (h : s.CommandTaken) : exec .store s = .next (s.withCommand 3).takeStore :=
  congrArg _ (State.issue_taken s h 3 _)

/-- R122: step 1 of STORE. -/
theorem State.takeStore_of_empty (h : s.host.workState = .empty) : s.takeStore = s.complete .notFetched := by
  simp [State.takeStore, h, WorkState.slot?]

/-- R118, R122: step 2 of STORE. -/
theorem State.takeStore_of_frozen (h : s.WorkOn k) (hr : s.opState ≠ .running) : s.takeStore = s.complete .frozen := by
  simp [State.takeStore, h.slot, hr]

/-- R123: step 3 of STORE. -/
theorem State.takeStore_of_stale (h : s.WorkOn k) (hr : s.opState = .running) (stale : s.Stale k) :
    s.takeStore = s.complete .stale := by
  simp [State.takeStore, h.slot, hr, (s.storeStale_iff k h).2 stale]

/-- R124–R126: the STORE of a fresh work record in RUNNING that one of steps 4 to 8 refuses. -/
theorem State.takeStore_of_error (h : s.WorkOn k) (hr : s.opState = .running) (fresh : ¬ s.Stale k) {r : Result}
    (hj : s.judgeStore k = .error r) : s.takeStore = s.complete r := by
  simp [State.takeStore, h.slot, hr, mt (s.storeStale_iff k h).1 fresh, hj]

/-- R127, R128: the STORE of a fresh work record in RUNNING that steps 4 to 8 let pass. -/
theorem State.takeStore_of_ok (h : s.WorkOn k) (hr : s.opState = .running) (fresh : ¬ s.Stale k) {new : Record}
    (hj : s.judgeStore k = .ok new) : s.takeStore = ((s.applyStore k new).fillWork k).complete .ok := by
  simp [State.takeStore, h.slot, hr, mt (s.storeStale_iff k h).1 fresh, hj]

theorem exec_store_refused (h : s.CommandTaken) (on : s.WorkOn k) (hr : s.opState = .running) (fresh : ¬ s.Stale k)
    {r : Result} (hj : s.judgeStore k = .error r) : exec .store s = .next (s.commandDone 3 r) := by
  rw [exec_store_taken h, State.takeStore_of_error (s := s.withCommand 3) on hr fresh hj, State.withCommand_complete]

/-- R124–R127: the verdict on fields that pass every step. -/
theorem State.StoreAccepted.judgeStore {new : Record} (h : s.StoreAccepted k new) : s.judgeStore k = .ok new := by
  have judged := (s.judgeStore_spec k).2 h.range
  rw [← h.fields] at judged
  dsimp only at judged
  rw [judged, if_neg (mt (s.rankTaken_iff ..).1 h.rank), if_neg (mt (s.storeLocked_iff ..).1 h.unlocked),
    if_neg (mt (s.placementRefused_iff ..).1 h.placed), if_neg (mt (s.spindleRefused_iff ..).1 h.spindle)]

/-- A claim speaks of the image and the queue alone, before it and after it. -/
theorem State.Claimed.congr {s' t t' : State} {new : Record} {c : CommitClass} (h : s'.Claimed t' k new c)
    (imageBefore : s'.image = s.image) (queueBefore : s'.queue = s.queue) (imageAfter : t.image = t'.image)
    (queueAfter : t.queue = t'.queue) : s.Claimed t k new c where
  others j hj := by rw [t'.slot_eq t imageAfter, h.others j hj, s.slot_eq s' imageBefore]
  slot := by rw [t'.slot_eq t imageAfter, h.slot, s.slot_eq s' imageBefore, s.record_eq s' imageBefore]
  queue := by rw [queueAfter, h.queue, s.record_eq s' imageBefore, queueBefore]

/-- R31: a STORE is urgent when the location or the retirement changes. -/
theorem storeClass_eq_urgent_iff (before after : Record) : storeClass before after = .urgent ↔
    after.location ≠ before.location ∨ ¬ ((after.condition = .worn ∨ after.condition = .damaged) ↔
      (before.condition = .worn ∨ before.condition = .damaged)) := by
  unfold storeClass
  rw [← Condition.retired_iff, ← Condition.retired_iff, ← Bool.eq_iff_iff]
  split <;> simp_all

/-- R62: the spindle lets go of slot `k`, to a place that is known or not. -/
theorem Spindle.afterStore_of_holds {l : Location} (hl : l ≠ .spindle) :
    (Spindle.holds k).afterStore k l = if l.isUnknown then .unknown else .empty := by
  cases l <;> simp_all [Spindle.afterStore]

theorem Location.isUnknown_iff (l : Location) : l.isUnknown = true ↔ ∃ p, l = .unknown p := by
  cases l <;> simp [Location.isUnknown]

/-- R31, R62, R127: what an accepted STORE does to the part. -/
theorem State.applyStore_spec (s : State) (k : Slot) (new : Record) :
    let u := s.applyStore k new
    s.Claimed u k new (storeClass (s.record k) new) ∧ u.spindle = s.spindle.afterStore k new.location ∧
      u = { s with image := u.image, queue := u.queue, spindle := u.spindle } := by
  refine ⟨State.claimed_of_claim s k new _ _ rfl rfl, rfl, ?_⟩
  unfold State.applyStore
  rw [State.claim_eq]

/-! ### RELEASE -/

theorem exec_release_taken (h : s.CommandTaken) (hr : s.opState = .running) :
    exec .release s = .next (s.withCommand 5).takeRelease :=
  congrArg _ (State.issue_whenRunning s h hr 5 _)

/-- R12, R129: the slot may be released: it is occupied, and OUT or UNKNOWN. -/
def State.Releasable (s : State) (k : Slot) : Prop :=
  (s.record k).condition ≠ .vacant ∧ ((s.record k).location = .out ∨ ∃ p, (s.record k).location = .unknown p)

theorem State.releasable_test (s : State) (k : Slot) :
    ((s.record k).occupied && ((s.record k).location == .out || (s.record k).location.isUnknown)) = true ↔
      s.Releasable k := by
  rw [Bool.and_eq_true, Bool.or_eq_true, beq_iff_eq, Record.occupied_iff, Location.isUnknown_iff, State.Releasable]

theorem State.takeRelease_of_none (h : s.argSlot? = none) : s.takeRelease = s.complete .range := by
  rw [State.takeRelease, h]

theorem State.takeRelease_of_inMachine (h : s.argSlot? = some k) (hk : ¬ s.Releasable k) :
    s.takeRelease = s.complete .inMachine := by
  rw [State.takeRelease, h]
  exact if_neg (mt (s.releasable_test k).1 hk)

theorem State.takeRelease_of_named (h : s.argSlot? = some k) (hk : s.Releasable k) (hn : s.Named k) :
    s.takeRelease = s.complete .locked := by
  rw [State.takeRelease, h]
  exact (if_pos ((s.releasable_test k).2 hk)).trans (if_pos ((Exchange.names_iff s k).2 hn))

theorem State.takeRelease_of_free (h : s.argSlot? = some k) (hk : s.Releasable k) (hn : ¬ s.Named k) :
    s.takeRelease = ((s.claim k Record.vacant .normal).setAttn k false).complete .ok := by
  rw [State.takeRelease, h]
  exact (if_pos ((s.releasable_test k).2 hk)).trans (if_neg (mt (Exchange.names_iff s k).1 hn))

/-- R12, R129: what the claim of a RELEASE does to the part. -/
theorem State.vacate_spec (hv : (s.record k).condition ≠ .vacant) :
    let v := (s.claim k Record.vacant .normal).setAttn k false
    v.slot k = { fields := Record.vacant, attn := false, dirty := true, storeFault := (s.slot k).storeFault,
                 stamp := (s.slot k).stamp + 1 } ∧
      (∀ j, j ≠ k → v.slot j = s.slot j) ∧ v.queue = s.queue.hand (.slot k) .normal ∧
      v = { s with image := v.image, queue := v.queue } := by
  have changed : Record.vacant ≠ s.record k := fun e => hv (e ▸ rfl)
  refine ⟨?_, fun j hj => ?_, ?_, ?_⟩
  · rw [State.setAttn, State.slot_setSlot_self, State.claim_slot_self, if_neg changed]
  · rw [State.setAttn, State.slot_setSlot_other _ _ hj, State.claim_slot_other _ _ _ _ hj]
  · rw [State.setAttn_queue, State.claim_queue, if_neg changed]
  · rw [State.claim_eq]; rfl

/-! ### RETRY_STORE -/

theorem exec_retryStore_taken (h : s.CommandTaken) (hr : s.opState = .running) :
    exec .retryStore s = .next (s.withCommand 10).takeRetryStore :=
  congrArg _ (State.issue_whenRunning s h hr 10 _)

theorem State.takeRetryStore_of_none (h : s.argSlot? = none) : s.takeRetryStore = s.complete .range := by
  rw [State.takeRetryStore, h]

theorem State.takeRetryStore_of_sound (h : s.argSlot? = some k) (hf : (s.slot k).storeFault = false) :
    s.takeRetryStore = s.complete .noFault := by
  simp [State.takeRetryStore, h, hf]

theorem State.takeRetryStore_of_faulted (h : s.argSlot? = some k) (hf : (s.slot k).storeFault = true) :
    s.takeRetryStore = (s.retry k).complete .ok := by
  simp [State.takeRetryStore, h, hf]

/-- R130: a slot that waits for a commit loses STORE_FAULT alone. -/
theorem State.retry_of_awaits (h : s.awaitsCommit k = true) :
    s.retry k = s.setSlot k { s.slot k with storeFault := false } := if_pos h

/-- R130: a slot that waits for none is DIRTY and handed normal. -/
theorem State.retry_of_not_awaits (h : s.awaitsCommit k = false) :
    s.retry k = { s.setSlot k { s.slot k with storeFault := false, dirty := true } with
      queue := s.queue.hand (.slot k) .normal } := if_neg (Bool.eq_false_iff.1 h)

theorem State.retry_slot_other {j : Slot} (hj : j ≠ k) : (s.retry k).slot j = s.slot j := by
  unfold State.retry
  split <;> exact s.slot_setSlot_other _ hj

theorem State.retry_eq (s : State) (k : Slot) :
    s.retry k = { s with image := (s.retry k).image, queue := (s.retry k).queue } := by
  unfold State.retry
  split <;> rfl

/-- R152: an entry that the queue does not hold is appended to the normal part. -/
theorem CommitQueue.hand_normal_of_not_holds {q : CommitQueue} {e : Entry} (h : q.holds e = false) :
    q.hand e .normal = { q with normal := q.normal ++ [e] } := if_neg (Bool.eq_false_iff.1 h)

/-! ### FLUSH -/

theorem exec_flush_taken (h : s.CommandTaken) : exec .flush s = .next (s.withCommand 11).takeFlush :=
  congrArg _ (State.issue_taken s h 11 _)

end

/-! ### The statements -/

/-- Settles O36: the command state and the operating state before the body of a command, and the code of each result. -/
theorem commandsRefusedByTheState : Obligations.CommandsRefusedByTheState := by
  refine ⟨fun c code s hc on low busy => ?_, fun c code s hc hcode h hr => exec_refused_frozen hc hcode h hr,
    fun code s hc h => congrArg _ (State.writeCommand_unknown h hc), fun s r n on hr h => ⟨?_, ?_⟩⟩
  · rw [exec_hostCode hc, State.writeCommand_busy on low busy]
  · have value : r.code = n := by
      refine (?_ : ∀ e ∈ _, e.1.code = e.2) (r, n) h
      simp [Result.code]
    rw [← value, ← hr]
    exact State.readHost_of_on (a := 0x05) on rfl
  · exact State.readHost_of_on (a := 0x04) on rfl

/-- Settles O37: ARG_SLOT in range or not, and the slot that it names vacant or not. -/
theorem fetchNewDiscard : Obligations.FetchNewDiscard := by
  refine ⟨fun s h beyond => ⟨?_, fun hr => ?_⟩,
    fun s k h named => ⟨fun hv => ?_, fun hv => ?_, fun hr hv => ?_, fun hr hv => ?_⟩,
    fun s h => congrArg _ (State.issue_taken s h 4 _)⟩
  · rw [exec_fetch_taken h, State.takeFetch_of_none (s.argSlot?_eq_none beyond 1), State.withCommand_complete]
  · rw [exec_new_taken h hr, State.takeNew_of_none (s.argSlot?_eq_none beyond 2), State.withCommand_complete]
  · rw [exec_fetch_taken h, State.takeFetch_of_vacant (s.argSlot?_eq_some k named 1) hv,
      State.withCommand_complete]
  · rw [exec_fetch_taken h, State.takeFetch_of_occupied (s.argSlot?_eq_some k named 1) hv]
    exact ⟨_, rfl, (s.slot k).workFields_copyOf, rfl⟩
  · rw [exec_new_taken h hr, State.takeNew_of_occupied (s.argSlot?_eq_some k named 2) hv,
      State.withCommand_complete]
  · rw [exec_new_taken h hr, State.takeNew_of_vacant (s.argSlot?_eq_some k named 2) hv]; rfl

/-- Settles O38: steps 1 to 3 by the work record and the operating state, steps 4 to 8 by their verdict. -/
theorem storeRefusals : Obligations.StoreRefusals := by
  intro s h
  refine ⟨fun he => ?_, fun k on hr => ?_, fun k new on hr hn => ⟨fun stale => ?_, fun fresh => ?_⟩⟩
  · rw [exec_store_taken h, State.takeStore_of_empty (s := s.withCommand 3) he, State.withCommand_complete]
  · rw [exec_store_taken h, State.takeStore_of_frozen (s := s.withCommand 3) on hr, State.withCommand_complete]
  · rw [exec_store_taken h, State.takeStore_of_stale (s := s.withCommand 3) on hr stale, State.withCommand_complete]
  have refuses {r : Result} (hj : s.judgeStore k = .error r) := exec_store_refused h on hr fresh hj
  obtain ⟨refused, judged⟩ := s.judgeStore_spec k
  refine ⟨fun ha => refuses (refused ha), fun ha => ?_⟩
  replace judged := judged ha
  rw [← hn] at judged
  dsimp only at judged
  refine ⟨fun rank => refuses ?_, fun rank => ?_⟩
  · rw [judged, if_pos ((s.rankTaken_iff ..).2 rank)]
  rw [if_neg (mt (s.rankTaken_iff ..).1 rank)] at judged
  refine ⟨fun locked => refuses ?_, fun locked => ?_⟩
  · rw [judged, if_pos ((s.storeLocked_iff ..).2 locked)]
  rw [if_neg (mt (s.storeLocked_iff ..).1 locked)] at judged
  refine ⟨fun conflict => refuses ?_, fun conflict spindle => refuses ?_⟩
  · rw [judged, if_pos ((s.placementRefused_iff ..).2 conflict)]
  · rw [judged, if_neg (mt (s.placementRefused_iff ..).1 conflict), if_pos ((s.spindleRefused_iff ..).2 spindle)]

/-- Settles O39: the claim of R127 with the class of R31, the spindle of R62, and the work record filled again. -/
theorem storeTakesTheRecord : Obligations.StoreTakesTheRecord := by
  intro s k new h accepted retired
  obtain ⟨claimed, spindle, frame⟩ := (s.withCommand 3).applyStore_spec k new
  rw [exec_store_taken h, State.takeStore_of_ok (s := s.withCommand 3) accepted.work accepted.running accepted.fresh
    accepted.judgeStore]
  generalize (s.withCommand 3).applyStore k new = u at claimed spindle frame
  refine ⟨_, _, rfl, claimed.congr rfl rfl rfl rfl, storeClass_eq_urgent_iff .., fun hl => spindle.trans ?_,
    fun hl hs => ⟨fun hu => spindle.trans ?_, fun hu => spindle.trans ?_⟩, fun hl hs => spindle.trans ?_,
    SlotState.workFields_copyOf _, by rw [frame]; rfl, by rw [frame]; rfl⟩
  · rw [hl, Spindle.afterStore_spindle]
  · rw [hs, Spindle.afterStore_of_holds hl, if_pos ((Location.isUnknown_iff _).2 hu)]
  · rw [hs, Spindle.afterStore_of_holds hl, if_neg (mt (Location.isUnknown_iff _).1 (not_exists.2 hu))]
  · exact Spindle.afterStore_other hl hs

/-- Settles O41: the table of R129, and the claim of a vacant slot with its ATTN clear. -/
theorem releaseVacatesTheSlot : Obligations.ReleaseVacatesTheSlot := by
  intro s h running
  rw [exec_release_taken h running]
  refine ⟨fun beyond => ?_, fun k named => ?_⟩
  · rw [State.takeRelease_of_none (s.argSlot?_eq_none beyond 5), State.withCommand_complete]
  have arg := s.argSlot?_eq_some k named 5
  intro lost
  refine ⟨fun hk => ?_, fun hv hl hn => ?_, fun hv hl hn => ?_⟩
  · have kept : ¬ (s.withCommand 5).Releasable k := fun ⟨hv, hl⟩ => hk.elim hv (· hl)
    rw [State.takeRelease_of_inMachine arg kept, State.withCommand_complete]
  · rw [State.takeRelease_of_named arg ⟨hv, hl⟩ hn, State.withCommand_complete]
  · obtain ⟨self, others, queue, frame⟩ := State.vacate_spec (s := s.withCommand 5) hv
    rw [State.takeRelease_of_free arg ⟨hv, hl⟩ hn]
    generalize ((s.withCommand 5).claim k Record.vacant .normal).setAttn k false = v at self others queue frame
    refine ⟨_, rfl, self, others, queue, fun n listed => ?_, by rw [frame]; rfl⟩
    exact ((State.mem_callIndex _ n k).1 listed).1 (congrArg (fun x => x.fields.condition) self)

/-- Settles O44: the fault of the slot, and what waits for its commit already. -/
theorem retryStoreQueuesAgain : Obligations.RetryStoreQueuesAgain := by
  intro s h running
  rw [exec_retryStore_taken h running]
  refine ⟨fun beyond => ?_, fun k named => ⟨fun hf => ?_, fun hf => ?_⟩⟩
  · rw [State.takeRetryStore_of_none (s.argSlot?_eq_none beyond 10), State.withCommand_complete]
  · rw [State.takeRetryStore_of_sound (s.argSlot?_eq_some k named 10) hf, State.withCommand_complete]
  · refine ⟨_, congrArg _ (State.takeRetryStore_of_faulted (s.argSlot?_eq_some k named 10) hf), fun waits => ?_,
      fun waits => ?_, fun j hj => State.retry_slot_other (s := s.withCommand 10) hj, ?_⟩
    · rw [State.retry_of_awaits (s := s.withCommand 10) waits]
      exact ⟨s.slot_setSlot_self k _, rfl⟩
    · have absent : s.queue.holds (.slot k) = false := (Bool.or_eq_false_iff.1 waits).1
      rw [State.retry_of_not_awaits (s := s.withCommand 10) waits, CommitQueue.hand_normal_of_not_holds absent]
      exact ⟨s.slot_setSlot_self k _, rfl, rfl⟩
    · rw [State.retry_eq]; rfl

/-- Settles O45: the drain of R131, at the command and at the completion, and the commit law over a drained part. -/
theorem flushWaitsForTheDrain : Obligations.FlushWaitsForTheDrain := by
  constructor
  · intro s h drained
    have test : (s.opState = .running ∧ s.drained) ↔ drained := by rw [State.drained_iff]
    rw [exec_flush_taken h]
    exact ⟨fun hd => congrArg _ (if_pos (test.2 hd)), fun hd => congrArg _ (if_neg (mt test.1 hd))⟩
  · intro s due
    have test : (s.host.busy && s.opState == .running && s.drained) = true ↔ due := by
      rw [Bool.and_eq_true, Bool.and_eq_true, beq_iff_eq, State.drained_iff, and_assoc]
    refine ⟨fun hd => congrArg _ (if_neg (mt test.1 hd)), fun hd => congrArg _ (if_pos (test.2 hd)),
      fun hd sound k fault => ?_⟩
    obtain ⟨-, running, urgent, normal, flight⟩ := hd
    have held := sound.held running
    have clean : (s.slot k).dirty = false := by
      rw [sound.dirty held k, fault]
      simp [State.awaitsCommit, State.inFlight, CommitQueue.holds, urgent, normal, flight]
    exact ⟨clean, sound.durable held k clean⟩

end Sys2Proof.Machine

/-! ## Register-window writes (O47) -/

namespace Sys2Proof.Machine

/-! ### The bytes of a 16-bit field -/

theorem byteOf_withLow_zero (w : BitVec 16) (b : Byte) : byteOf (withLow w b) 0 = b :=
  BitVec.extractLsb'_append_eq_right

theorem byteOf_withLow_one (w : BitVec 16) (b : Byte) : byteOf (withLow w b) 1 = byteOf w 1 :=
  BitVec.extractLsb'_append_eq_left

theorem byteOf_withHigh_zero (w : BitVec 16) (b : Byte) : byteOf (withHigh w b) 0 = byteOf w 0 :=
  BitVec.extractLsb'_append_eq_right

theorem byteOf_withHigh_one (w : BitVec 16) (b : Byte) : byteOf (withHigh w b) 1 = b :=
  BitVec.extractLsb'_append_eq_left

/-! ### The positions written -/

section
variable (w : WorkFields) (h : HostPort) (o : Nat) (b : Byte)

/-- R114, R115: the byte that each work-record position holds after a write at position `o`. -/
theorem WorkFields.writeByte_reads :
    (w.writeByte o b).directive = (if o = 0x24 then b else w.directive) ∧
    (w.writeByte o b).condition = w.condition ∧
    byteOf (w.writeByte o b).tool 0 = (if o = 0x26 then b else byteOf w.tool 0) ∧
    byteOf (w.writeByte o b).tool 1 = (if o = 0x27 then b else byteOf w.tool 1) ∧
    (w.writeByte o b).rank = (if o = 0x28 then b else w.rank) ∧
    (w.writeByte o b).size = (if o = 0x29 then b else w.size) ∧
    (w.writeByte o b).mode = (if o = 0x2A then b else w.mode) ∧
    byteOf (w.writeByte o b).limit 0 = (if o = 0x2B then b else byteOf w.limit 0) ∧
    byteOf (w.writeByte o b).limit 1 = (if o = 0x2C then b else byteOf w.limit 1) ∧
    byteOf (w.writeByte o b).remaining 0 = (if o = 0x2D then b else byteOf w.remaining 0) ∧
    byteOf (w.writeByte o b).remaining 1 = (if o = 0x2E then b else byteOf w.remaining 1) ∧
    byteOf (w.writeByte o b).warn 0 = (if o = 0x2F then b else byteOf w.warn 0) ∧
    byteOf (w.writeByte o b).warn 1 = (if o = 0x30 then b else byteOf w.warn 1) ∧
    (w.writeByte o b).charged = w.charged ∧
    (w.writeByte o b).locKind = (if o = 0x34 then b else w.locKind) ∧
    (w.writeByte o b).locPocket = (if o = 0x35 then b else w.locPocket) ∧
    (w.writeByte o b).home = (if o = 0x36 then b else w.home) ∧
    (w.writeByte o b).flags = (if o = 0x37 then b else w.flags) ∧
    (w.writeByte o b).indic = w.indic := by
  unfold WorkFields.writeByte
  split <;> simp_all [byteOf_withLow_zero, byteOf_withLow_one, byteOf_withHigh_zero, byteOf_withHigh_one]

/-- R114, R115: what the other positions of the Host Port hold after a write at position `o`. -/
theorem HostPort.writeByte_reads :
    (h.writeByte o b).argSlot = (if o = 0x06 then b else h.argSlot) ∧
    byteOf (h.writeByte o b).argTool 0 = (if o = 0x07 then b else byteOf h.argTool 0) ∧
    byteOf (h.writeByte o b).argTool 1 = (if o = 0x08 then b else byteOf h.argTool 1) ∧
    (h.writeByte o b).argPos = (if o = 0x09 then b else h.argPos) ∧
    (h.writeByte o b).pocketSelect = (if o = 0x11 then b else h.pocketSelect) ∧
    (h.writeByte o b).stageP = (if o = 0x1C then b else h.stageP) ∧
    (h.writeByte o b).stagePolicy = (if o = 0x1D then b else h.stagePolicy) ∧
    (h.writeByte o b).stageTimeout = (if o = 0x1E then b else h.stageTimeout) := by
  unfold HostPort.writeByte
  split <;> simp_all [byteOf_withLow_zero, byteOf_withLow_one, byteOf_withHigh_zero, byteOf_withHigh_one]

/-- R114: a write at a work-record position, and at no other, is a write of the work record. -/
theorem HostPort.writeByte_work : (h.writeByte o b).work = h.work.writeByte o b := by
  unfold HostPort.writeByte; split <;> rfl

/-- R115: a write of a position without behaviour of its own leaves the rest of the Host Port. -/
theorem HostPort.writeByte_frame :
    (h.writeByte o b).busy = h.busy ∧ (h.writeByte o b).command = h.command ∧ (h.writeByte o b).result = h.result ∧
      (h.writeByte o b).cmdRefused = h.cmdRefused ∧ (h.writeByte o b).workState = h.workState ∧
      (h.writeByte o b).causes = h.causes ∧ (h.writeByte o b).enable = h.enable := by
  unfold HostPort.writeByte; split <;> exact ⟨rfl, rfl, rfl, rfl, rfl, rfl, rfl⟩

/-- R114: the low two bits of a byte, with bits 7 to 2 at 0. -/
theorem zero_append_low_bits (b : Byte) : (0 : BitVec 6) ++ b.extractLsb' 0 2 = b &&& 3 := by
  decide +revert

/-- R114, R115: a position without behaviour of its own reads the byte written; in the order of the positions. -/
theorem State.windowByte_written (s : State) (b : Byte) : ∀ o ∈ plainPositions,
    State.windowByte { s with host := s.host.writeByte o b } o = if o = 0x37 then b &&& 3 else b := by
  have low (w : BitVec 16) := byteOf_withLow_zero w b
  have high (w : BitVec 16) := byteOf_withHigh_one w b
  simp only [plainPositions, List.forall_mem_cons]
  exact ⟨rfl, low _, high _, rfl, rfl, rfl, rfl, rfl, rfl, low _, high _, rfl, rfl, rfl, low _, high _, low _, high _,
    low _, high _, rfl, rfl, rfl, zero_append_low_bits b, nofun⟩

theorem State.status_written (s : State) : State.status { s with host := s.host.writeByte o b } = s.status := by
  simp only [State.status, HostPort.writeByte_frame]; rfl

theorem State.pendingCauses_written (s : State) :
    State.pendingCauses { s with host := s.host.writeByte o b } = s.pendingCauses := by
  simp only [State.pendingCauses, HostPort.writeByte_frame]; rfl

theorem State.lowestAttn_withHost (s : State) (h : HostPort) : State.lowestAttn { s with host := h } = s.lowestAttn :=
  rfl

theorem State.pocketReport_withHost (s : State) (h : HostPort) (p : Nat) :
    State.pocketReport { s with host := h } p = s.pocketReport p := rfl

/-- R115: no other position than the pocket report changes. -/
theorem State.windowByte_written_other (s : State) {i : Nat} (hi : i ≠ o) (report : o = 0x11 → i ≠ 0x12 ∧ i ≠ 0x13) :
    State.windowByte { s with host := s.host.writeByte o b } i = s.windowByte i := by
  have select : i = 0x12 ∨ i = 0x13 → o ≠ 0x11 := fun he ho => he.elim (report ho).1 (report ho).2
  unfold State.windowByte
  split <;> simp only [hi.symm, select, true_or, or_true, if_false, State.status_written, State.pendingCauses_written,
    State.lowestAttn_withHost, State.pocketReport_withHost, HostPort.writeByte_frame, HostPort.writeByte_reads,
    HostPort.writeByte_work, WorkFields.writeByte_reads]

end

/-! ### The write of the window -/

/-- R114: the positions that are not RW take no byte. -/
theorem WorkFields.writeByte_of_not_plain (w : WorkFields) {o : Nat} (ho : o ∉ plainPositions) (b : Byte) :
    w.writeByte o b = w := by
  unfold WorkFields.writeByte
  split
  case h_17 => rfl
  all_goals exact absurd (by decide) ho

theorem HostPort.writeByte_of_not_plain (h : HostPort) {o : Nat} (ho : o ∉ plainPositions) (b : Byte) :
    h.writeByte o b = h := by
  unfold HostPort.writeByte
  split
  case h_9 => rw [WorkFields.writeByte_of_not_plain _ ho]
  all_goals exact absurd (by decide) ho

/-- R113: the position of a window address below 0x40. -/
theorem window_position {a : BitVec 10} (h : a.toNat < 0x40) :
    a.extractLsb' 6 4 = 0 ∧ (a.extractLsb' 0 6).toNat = a.toNat := by
  constructor
  · apply BitVec.eq_of_toNat_eq
    simp [BitVec.extractLsb'_toNat, Nat.shiftRight_eq_div_pow]
    omega
  · simp [BitVec.extractLsb'_toNat]
    omega

/-- R113: a window address with any of A9–A6 set names no position. -/
theorem window_beyond {a : BitVec 10} (h : ¬ a.toNat < 0x40) : a.extractLsb' 6 4 ≠ 0#4 := by
  intro e
  have := congrArg BitVec.toNat e
  simp [BitVec.extractLsb'_toNat, Nat.shiftRight_eq_div_pow] at this
  omega

/-- R114: the positions whose write has behaviour of its own. -/
theorem ownRowAddress_eq_false_iff (a : BitVec 10) :
    ownRowAddress a = false ↔ a.toNat ≠ 0x03 ∧ a.toNat ≠ 0x04 ∧ a.toNat ≠ 0x0A ∧ a.toNat ≠ 0x0B := by
  simp [ownRowAddress, BitVec.toNat_eq, and_assoc]

/-- R113, R115: the write of an address that has no behaviour of its own. -/
theorem State.writeWindow_eq {s : State} (served : s.served = true) {a : BitVec 10} (ha : ownRowAddress a = false)
    (d : Byte) : s.writeWindow a d =
      if a.toNat < 0x40 then { s with host := s.host.writeByte a.toNat d } else s := by
  obtain ⟨status, command, pending, enable⟩ := (ownRowAddress_eq_false_iff a).1 ha
  unfold State.writeWindow
  by_cases inside : a.toNat < 0x40
  · obtain ⟨high, position⟩ := window_position inside
    rw [if_pos (by simp [served, high]), if_pos inside, position]
    split <;> [contradiction; contradiction; contradiction; contradiction; rfl]
  · rw [if_neg (by simp [window_beyond inside]), if_neg inside]

theorem plainPositions_lt : ∀ o ∈ plainPositions, o < 0x40 := by decide

theorem ownRowAddress_of_plain {a : BitVec 10} (h : a.toNat ∈ plainPositions) : ownRowAddress a = false :=
  (ownRowAddress_eq_false_iff a).2
    ((by decide : ∀ o ∈ plainPositions, o ≠ 0x03 ∧ o ≠ 0x04 ∧ o ≠ 0x0A ∧ o ≠ 0x0B) a.toNat h)

/-- R115: the write of an RW position without behaviour of its own. -/
theorem State.writeWindow_of_plain {s : State} (served : s.served = true) {a : BitVec 10}
    (h : a.toNat ∈ plainPositions) (d : Byte) : s.writeWindow a d = { s with host := s.host.writeByte a.toNat d } := by
  rw [State.writeWindow_eq served (ownRowAddress_of_plain h), if_pos (plainPositions_lt _ h)]

/-- R115: every other position without behaviour of its own ignores the write. -/
theorem State.writeWindow_of_not_plain {s : State} (served : s.served = true) {a : BitVec 10}
    (h : a.toNat ∉ plainPositions) (ha : ownRowAddress a = false) (d : Byte) : s.writeWindow a d = s := by
  rw [State.writeWindow_eq served ha, HostPort.writeByte_of_not_plain _ h]
  split <;> rfl

/-! ### The positions with behaviour of their own -/

/-- R115: bit 3 written 1 to STATUS. -/
theorem State.writeStatus_of_set {s : State} (served : s.served = true) {d : Byte} (h : d.getLsbD 3 = true) :
    s.writeStatus d = { s with host := { s.host with cmdRefused := false } } :=
  if_pos (by rw [served, h]; rfl)

theorem State.writeStatus_of_clear (s : State) {d : Byte} (h : d.getLsbD 3 = false) : s.writeStatus d = s :=
  if_neg (by rw [h, Bool.and_false]; exact Bool.false_ne_true)

/-- R143: a cause is cleared where its bit is written 1. -/
theorem Causes.clearWritten_eq (c : Causes) (d : Byte) : c.clearWritten d =
    { command := if d.getLsbD 0 then false else c.command
      suspect := if d.getLsbD 2 then false else c.suspect
      link := if d.getLsbD 3 then false else c.link
      supply := if d.getLsbD 4 then false else c.supply
      configFault := if d.getLsbD 5 then false else c.configFault } := by
  have cleared (c b : Bool) : (c && !b) = if b then false else c := by cases b <;> simp
  simp only [Causes.clearWritten, cleared]

theorem State.writeIntPending_of_served {s : State} (served : s.served = true) (d : Byte) :
    s.writeIntPending d = s.setCauses (s.host.causes.clearWritten d) := if_pos served

theorem State.writeIntEnable_of_served {s : State} (served : s.served = true) (d : Byte) :
    s.writeIntEnable d = { s with host := { s.host with enable := d.extractLsb' 0 6 } } := if_pos served

/-! ### The write on the bus -/

theorem windowWrite_of_not_ownRow {a : BitVec 10} (ha : ownRowAddress a = false) (d : Byte) :
    windowWrite a d = .registerWrite a d := by
  obtain ⟨status, command, pending, enable⟩ := (ownRowAddress_eq_false_iff a).1 ha
  unfold windowWrite
  split <;> [contradiction; contradiction; contradiction; contradiction; rfl]

/-- R117: the command of a code is the command that writes it. -/
theorem commandOfCode_of_hostCode {c : Instr} {d : Byte} (wf : c.wellFormed = true) (hc : hostCode? c = some d) :
    commandOfCode d = c := by
  cases c <;> cases hc
  case unknownCommand =>
    have outside : d.toNat = 0 ∨ 13 ≤ d.toNat := by
      simpa [Instr.wellFormed, unknownCode, BitVec.toNat_eq] using wf
    unfold commandOfCode
    split
    case h_13 => rfl
    all_goals omega
  all_goals rfl

/-- Settles O47: the positions with behaviour of their own, the RW positions, all others, and the writes on the bus. -/
theorem registerWrites : Obligations.RegisterWrites := by
  intro s d on low
  have served := s.served_of_on on low
  refine ⟨fun set => congrArg Host.Outcome.next (State.writeStatus_of_set served set),
    fun clear => congrArg Host.Outcome.next (s.writeStatus_of_clear clear), ?_,
    ⟨_, congrArg Host.Outcome.next (State.writeIntEnable_of_served served d), fun i hi => ?_, rfl⟩,
    fun a ha => ?_, fun a ha wf => ?_,
    ⟨hostWrite_window 0x03 d, hostWrite_window 0x0A d, hostWrite_window 0x0B d⟩, fun c wf hc => ?_, fun a wf => ?_⟩
  · exact congrArg Host.Outcome.next ((State.writeIntPending_of_served served d).trans
      (congrArg s.setCauses (s.host.causes.clearWritten_eq d)))
  · simp [hi]
  · exact ⟨_, congrArg Host.Outcome.next (State.writeWindow_of_plain served ha d), s.windowByte_written d _ ha,
      fun i hi report => s.windowByte_written_other _ d hi report, rfl⟩
  · exact congrArg Host.Outcome.next (State.writeWindow_of_not_plain served ha (by simpa [Instr.wellFormed] using wf) d)
  · exact (hostWrite_window 0x04 d).trans (commandOfCode_of_hostCode wf hc)
  · rw [hostWrite_window, windowWrite_of_not_ownRow (by simpa [Instr.wellFormed] using wf)]

end Sys2Proof.Machine

/-! ## The flag space, attention and the reads of the host (O48, O49) -/

namespace Sys2Proof.Machine

/-! ### Flag-space writes -/

section
variable {s : State} {k : Slot}

/-- R138: HOLD is written neither outside RUNNING nor on a vacant slot. -/
theorem State.writeHold_of_ignored (h : s.opState ≠ .running ∨ (s.record k).condition = .vacant) (v : Bool) :
    s.writeHold k v = s := by
  rcases h with stopped | vacant
  · simp [State.writeHold, stopped]
  · simp [State.writeHold, (Record.occupied_eq_false _).2 vacant]

/-- R138: MEASURE is written neither outside RUNNING nor on a vacant slot. -/
theorem State.writeMeasure_of_ignored (h : s.opState ≠ .running ∨ (s.record k).condition = .vacant) (v : Bool) :
    s.writeMeasure k v = s := by
  rcases h with stopped | vacant
  · simp [State.writeMeasure, stopped]
  · simp [State.writeMeasure, (Record.occupied_eq_false _).2 vacant]

/-- R35: HOLD of a repair duplicate is not cleared. -/
theorem State.writeHold_of_duplicate (h : s.repairDuplicate k = true) : s.writeHold k false = s := by
  simp [State.writeHold, h]

/-- R3, R138: a write of HOLD that is taken is a claim. -/
theorem State.writeHold_of_taken (served : s.served = true) (running : s.opState = .running)
    (occupied : (s.record k).occupied = true) {v : Bool} (h : v = true ∨ s.repairDuplicate k = false) :
    s.writeHold k v = s.claim k { s.record k with hold := v } .normal :=
  if_pos (by simpa [served, running, occupied] using h)

/-- R3, R138: a write of MEASURE that is taken is a claim. -/
theorem State.writeMeasure_of_taken (served : s.served = true) (running : s.opState = .running)
    (occupied : (s.record k).occupied = true) (v : Bool) :
    s.writeMeasure k v = s.claim k { s.record k with measure := v } .normal :=
  if_pos (by simp [served, running, occupied])

/-- R139: a set of ATTN is ignored on a vacant slot. -/
theorem State.writeAttn_of_ignored (vacant : (s.record k).condition = .vacant) : s.writeAttn k true = s := by
  simp [State.writeAttn, (Record.occupied_eq_false _).2 vacant]

/-- R139: a clear of ATTN is taken on every slot, a set on a non-vacant one. -/
theorem State.writeAttn_of_taken (served : s.served = true) {v : Bool}
    (h : v = false ∨ (s.record k).condition ≠ .vacant) : s.writeAttn k v = s.setAttn k v :=
  if_pos (by simpa [served, Record.occupied_iff] using h)

/-- R3: what a write that is a claim does to the state. -/
theorem State.next_claimed {u : State} {new : Record} {cls : CommitClass} (h : u = s.claim k new cls) :
    ∃ t, (.next u : Host.Outcome State Fault Refusal) = .next t ∧ s.Claimed t k new cls ∧
      t = { s with image := t.image, queue := t.queue } := by
  subst h
  exact ⟨_, rfl, s.claimed_of_claim k new cls _ rfl rfl, s.claim_eq k new cls⟩

end

theorem exec_holdWrite (s : State) (k : Slot) (v : Bool) :
    exec (if v then .holdSet k else .holdClear k) s = .next (s.writeHold k v) := by cases v <;> rfl

theorem exec_measureWrite (s : State) (k : Slot) (v : Bool) :
    exec (if v then .measureSet k else .measureClear k) s = .next (s.writeMeasure k v) := by cases v <;> rfl

theorem exec_attnWrite (s : State) (k : Slot) (v : Bool) :
    exec (if v then .attnSet k else .attnClear k) s = .next (s.writeAttn k v) := by cases v <;> rfl

/-- Settles O48: HOLD and MEASURE by the operating state and the slot, ATTN by the slot, DIRTY, and the decode of the
address. -/
theorem flagWrites : Obligations.FlagWrites := by
  refine ⟨fun s k v on low => ?_, fun s k v => rfl, fun k v d => ?_⟩
  · have served := s.served_of_on on low
    dsimp only
    rw [exec_holdWrite, exec_measureWrite, exec_attnWrite]
    refine ⟨fun ignored => ?_, fun running present => ?_, ?_, fun taken => ?_⟩
    · rw [State.writeHold_of_ignored ignored, State.writeMeasure_of_ignored ignored]
      exact ⟨rfl, rfl⟩
    · have occupied := (Record.occupied_iff _).2 present
      refine ⟨?_, fun free => State.next_claimed (State.writeHold_of_taken served running occupied ?_), ?_⟩
      · rintro rfl duplicate
        rw [State.writeHold_of_duplicate ((s.repairDuplicate_iff k).2 duplicate)]
      · exact free.imp_right fun alone => Bool.eq_false_iff.2 (mt (s.repairDuplicate_iff k).1 alone)
      · exact State.next_claimed (State.writeMeasure_of_taken served running occupied v)
    · rintro rfl vacant
      rw [State.writeAttn_of_ignored vacant]
    · rw [State.writeAttn_of_taken served taken]
      exact ⟨_, rfl, s.slot_setSlot_self k _, fun j hj => s.slot_setSlot_other _ hj, rfl⟩
  · dsimp only
    simp only [hostWrite_flag]
    cases v <;> exact ⟨rfl, rfl, rfl, rfl⟩

/-! ### Flag-space reads -/

/-- A flag as a flag-space read returns it: on D7, every other line at 0 (R135). -/
def flagByte (v : Bool) : Byte := if v then 0x80 else 0

theorem ofBool_append_eq_flagByte (v : Bool) : BitVec.ofBool v ++ (0 : BitVec 7) = flagByte v := by cases v <;> rfl

/-- R135: a read with A10 at 1 is the flag and slot that its address names, whatever A7 is. -/
theorem State.readHost_flag {s : State} (on : s.opState ≠ .off) (flag : BitVec 2) (operation : BitVec 1) (k : Slot) :
    s.readHost (1#1 ++ flag ++ operation ++ BitVec.ofNat 7 k.val) = some (flagByte (s.flag (flagOfCode flag) k)) := by
  obtain ⟨v, rfl⟩ : ∃ v, operation = BitVec.ofBool v := ⟨operation.getLsbD 0, by revert operation; decide⟩
  obtain ⟨space, name, slot, -⟩ := flag_address flag v k
  rw [State.readHost, if_pos space, State.readFlag, if_neg on, name, slot, ofBool_append_eq_flagByte]

/-- R13: every flag of a vacant slot reads 0. -/
theorem State.flag_of_vacant {s : State} {k : Slot} (vacant : (s.record k).condition = .vacant) (f : FlagName) :
    s.flag f k = false := by
  unfold State.flag
  rw [(Record.occupied_eq_false _).2 vacant, Bool.false_and]

/-- R135: a flag of a non-vacant slot reads as the image has it. -/
theorem State.flag_of_occupied {s : State} {k : Slot} (present : (s.record k).condition ≠ .vacant) :
    s.flag .hold k = (s.record k).hold ∧ s.flag .measure k = (s.record k).measure ∧
      s.flag .attn k = (s.slot k).attn ∧ s.flag .dirty k = (s.slot k).dirty := by
  simp [State.flag, (Record.occupied_iff _).2 present]

/-! ### Attention and interrupts -/

theorem State.lowestAttnSlot_eq_none_iff (s : State) : s.lowestAttnSlot = none ↔ ∀ k, (s.slot k).attn = false := by
  simp [State.lowestAttnSlot, mem_slots]

theorem State.lowestAttnSlot_eq_some_iff (s : State) (k : Slot) :
    s.lowestAttnSlot = some k ↔ (s.slot k).attn = true ∧ ∀ j, j < k → (s.slot j).attn = false :=
  slots_find?_eq_some _ k

/-- R141: LOWEST_ATTN is 255 exactly when no slot has ATTN set. -/
theorem State.lowestAttn_eq_255_iff (s : State) : s.lowestAttn = 255 ↔ s.lowestAttnSlot = none := by
  unfold State.lowestAttn
  cases s.lowestAttnSlot with
  | none => simp
  | some j => simp; omega

/-- R141: LOWEST_ATTN is otherwise the number of the lowest slot with ATTN set. -/
theorem State.lowestAttn_eq_slot_iff (s : State) (k : Slot) : s.lowestAttn = k.val ↔ s.lowestAttnSlot = some k := by
  unfold State.lowestAttn
  cases s.lowestAttnSlot with
  | none => simp; omega
  | some j => simp [Fin.ext_iff]

theorem State.attention_iff (s : State) : s.attention = true ↔ ∃ k, (s.slot k).attn = true := by
  simp [State.attention, mem_slots]

/-- R142, R145: bit 1 of INT_PENDING is ATTENTION. -/
theorem State.pendingCauses_attention (s : State) :
    s.pendingCauses.getLsbD 1 = true ↔ ∃ k, (s.slot k).attn = true := by
  have bit : s.pendingCauses.getLsbD 1 = s.attention := by
    simp only [State.pendingCauses, BitVec.getLsbD_append, BitVec.getLsbD_ofBool]
    simp
  rw [bit, s.attention_iff]

/-- The bits of a field that zeros extend to a byte. -/
theorem getLsbD_zero_append {m n : Nat} (x : BitVec n) (i : Nat) : (0#m ++ x).getLsbD i = x.getLsbD i := by
  rw [BitVec.getLsbD_append, BitVec.getLsbD_zero]
  split
  · rfl
  · exact (BitVec.getLsbD_of_ge x i (by omega)).symm

/-- R142: the bits of INT_PENDING as it reads. -/
theorem State.intPending_bits (s : State) :
    let b : Byte := 0#2 ++ s.pendingCauses
    b.getLsbD 0 = s.host.causes.command ∧ b.getLsbD 1 = s.pendingCauses.getLsbD 1 ∧
      b.getLsbD 2 = s.host.causes.suspect ∧ b.getLsbD 3 = s.host.causes.link ∧
      b.getLsbD 4 = s.host.causes.supply ∧ b.getLsbD 5 = s.host.causes.configFault ∧
      b.getLsbD 6 = false ∧ b.getLsbD 7 = false := by
  simp only [State.pendingCauses, BitVec.getLsbD_append, BitVec.getLsbD_ofBool]
  simp

/-- Two words have a common bit exactly when their conjunction is not 0. -/
theorem and_ne_zero_iff_getLsbD {n : Nat} (x y : BitVec n) :
    x &&& y ≠ 0#n ↔ ∃ i, x.getLsbD i = true ∧ y.getLsbD i = true := by
  constructor
  · intro h
    by_contra none
    refine h (BitVec.eq_of_getLsbD_eq fun i _ => ?_)
    simpa using fun hx => (none ⟨i, hx, ·⟩)
  · rintro ⟨i, hx, hy⟩ zero
    simpa [hx, hy] using congrArg (BitVec.getLsbD · i) zero

/-- R147: INT is high exactly while a cause is both pending and enabled, as INT_PENDING and INT_ENABLE read. -/
theorem State.intLine_iff {s : State} (on : s.opState ≠ .off) :
    s.intLine = true ↔
      ∃ i, (0#2 ++ s.pendingCauses).getLsbD i = true ∧ (0#2 ++ s.host.enable).getLsbD i = true := by
  simp only [getLsbD_zero_append]
  rw [← and_ne_zero_iff_getLsbD]
  simp [State.intLine, on]

/-- R114, R115: the bits of STATUS. -/
theorem State.status_bits (s : State) :
    s.status.getLsbD 0 = (s.opState == .running) ∧ s.status.getLsbD 1 = (s.opState == .frozen) ∧
      s.status.getLsbD 2 = s.host.busy ∧ s.status.getLsbD 3 = s.host.cmdRefused ∧
      s.status.getLsbD 4 = s.drained ∧ s.status.getLsbD 5 = s.confirmation.isSome := by
  simp only [State.status, BitVec.getLsbD_append, BitVec.getLsbD_ofBool]
  simp

/-! ### Register-window reads -/

/-- R114: byte `i` of a field. -/
theorem byteOf_eq_byteNat {n : Nat} (w : BitVec n) (i : Nat) : byteOf w i = byteNat (w.toNat / 2 ^ (8 * i)) := by
  rw [← Nat.shiftRight_eq_div_pow]; rfl

/-- R114: a field of two bytes is read from its lowest offset on. -/
theorem word_read {v : BitVec 16} {low high : Option Byte} (hl : low = some (byteOf v 0))
    (hh : high = some (byteOf v 1)) : low = some (byteNat v.toNat) ∧ high = some (byteNat (v.toNat / 256)) :=
  ⟨hl, hh.trans (congrArg some (byteOf_eq_byteNat v 1))⟩

/-- R114: the bits of WR_FLAGS as it reads (log 23). -/
theorem flagsRead_bits (flags : Byte) :
    let b : Byte := 0#6 ++ flags.extractLsb' 0 2
    b.getLsbD 0 = flags.getLsbD 0 ∧ b.getLsbD 1 = flags.getLsbD 1 ∧ ∀ i, 2 ≤ i → b.getLsbD i = false := by
  have bits (i) := getLsbD_zero_append (m := 6) (flags.extractLsb' 0 2) i
  exact ⟨(bits 0).trans (by simp), (bits 1).trans (by simp),
    fun i hi => (bits i).trans (BitVec.getLsbD_of_ge _ i hi)⟩

/-- R113: an address beyond the window, and an unused offset, reads 0. -/
theorem State.readHost_unused {s : State} (on : s.opState ≠ .off) {a : BitVec 10} (h : a = 0x1F ∨ 0x39 ≤ a.toNat) :
    s.readHost (0#1 ++ a) = some 0 := by
  by_cases inside : a.toNat < 0x40
  · obtain ⟨high, position⟩ := window_position inside
    rw [State.readHost_of_on on high, position]
    have unused : a.toNat ∈ [0x1F, 0x39, 0x3A, 0x3B, 0x3C, 0x3D, 0x3E, 0x3F] := by
      rcases h with rfl | beyond
      · decide
      · simp; omega
    generalize a.toNat = o at unused ⊢
    fin_cases unused <;> rfl
  · rw [State.readHost_window, State.readWindow, if_neg on]
    exact if_pos (window_beyond inside)

section
variable {e : Exchange} {x : OpenExchange}

theorem Exchange.tagByte_of_open (h : e.open? = some x) : e.tagByte = byteNat x.tag := by simp [Exchange.tagByte, h]

theorem Exchange.kindByte_of_call (h : e.open? = some x) {i p out} (hm : x.movement = .call i p out) :
    e.kindByte = 1 := by
  obtain ⟨tag, _⟩ := x
  cases hm
  simp [Exchange.kindByte, h]

theorem Exchange.kindByte_of_putaway (h : e.open? = some x) {k r} (hm : x.movement = .putaway k r) :
    e.kindByte = 2 := by
  obtain ⟨tag, _⟩ := x
  cases hm
  simp [Exchange.kindByte, h]

/-- The bytes of an end of a movement: its slot and pocket, or 255 and 0 where it is absent (R74). -/
def endBytes : Option (Slot × Nat) → Byte × Byte
  | some (k, p) => (byteNat k.val, byteNat p)
  | none => (255, 0)

theorem Exchange.incomingBytes_of_open (h : e.open? = some x) : e.incomingBytes = endBytes x.movement.incoming := by
  simp only [Exchange.incomingBytes, h, Option.bind_some]
  cases x.movement.incoming <;> rfl

theorem Exchange.outgoingBytes_of_open (h : e.open? = some x) : e.outgoingBytes = endBytes x.movement.outgoing := by
  simp only [Exchange.outgoingBytes, h, Option.bind_some]
  cases x.movement.outgoing <;> rfl

end

/-- R74: what the two registers of an end of a movement read, present or absent. -/
theorem endBytes_read {e : Option (Slot × Nat)} {slot pocket : Option Byte} (hs : slot = some (endBytes e).1)
    (hp : pocket = some (endBytes e).2) :
    (∀ k p, e = some (k, p) → slot = some (byteNat k.val) ∧ pocket = some (byteNat p)) ∧
      (e = none → slot = some (byteNat 255) ∧ pocket = some (byteNat 0)) := by
  subst hs hp
  constructor
  · rintro k p rfl
    exact ⟨rfl, rfl⟩
  · rintro rfl
    exact ⟨rfl, rfl⟩

/-! ### The registers of the spindle, the exchange and the work record -/

section
variable {s : State} (on : s.opState ≠ .off)
include on

/-- R61: the registers of the spindle. -/
theorem State.readHost_spindle {sp : Spindle} (h : s.spindle = sp) :
    s.readHost (0#1 ++ 0x0F#10) = some (byteNat sp.code) ∧ s.readHost (0#1 ++ 0x10#10) = some sp.slotByte := by
  subst h
  exact ⟨State.readHost_of_on on rfl, State.readHost_of_on on rfl⟩

/-- R74: the state and the cause of the exchange. -/
theorem State.readHost_exchange {e : Exchange} (h : s.exchange = e) :
    s.readHost (0#1 ++ 0x14#10) = some (byteNat e.code) ∧ s.readHost (0#1 ++ 0x1B#10) = some e.causeByte := by
  subst h
  exact ⟨State.readHost_of_on on rfl, State.readHost_of_on on rfl⟩

/-- R74: every register of the exchange while the context is IDLE. -/
theorem State.readHost_exchange_idle (idle : s.exchange = .idle) :
    ∀ o n, (o, n) ∈ [(0x14#10, 0), (0x15#10, 0), (0x16#10, 0), (0x17#10, 255), (0x18#10, 0), (0x19#10, 255),
      (0x1A#10, 0), (0x1B#10, 0)] → s.readHost (0#1 ++ o) = some (byteNat n) := by
  cases s
  cases idle
  intro o n h
  fin_cases h <;> exact State.readHost_of_on on rfl

/-- R74: the registers of the ends of an open exchange. -/
theorem State.readHost_ends {x : OpenExchange} (isOpen : s.exchange.open? = some x) :
    (s.readHost (0#1 ++ 0x17#10) = some (endBytes x.movement.incoming).1 ∧
      s.readHost (0#1 ++ 0x18#10) = some (endBytes x.movement.incoming).2) ∧
    s.readHost (0#1 ++ 0x19#10) = some (endBytes x.movement.outgoing).1 ∧
      s.readHost (0#1 ++ 0x1A#10) = some (endBytes x.movement.outgoing).2 := by
  rw [← Exchange.incomingBytes_of_open isOpen, ← Exchange.outgoingBytes_of_open isOpen]
  exact ⟨⟨State.readHost_of_on on rfl, State.readHost_of_on on rfl⟩,
    State.readHost_of_on on rfl, State.readHost_of_on on rfl⟩

/-- R119: the state, the slot and the stamp of the work record. -/
theorem State.readHost_workState {w : WorkState} (h : s.host.workState = w) :
    s.readHost (0#1 ++ 0x20#10) = some (byteNat w.code) ∧ s.readHost (0#1 ++ 0x21#10) = some w.slotByte ∧
      s.readHost (0#1 ++ 0x22#10) = some (byteNat w.stamp.toNat) ∧
      s.readHost (0#1 ++ 0x23#10) = some (byteNat (w.stamp.toNat / 256)) := by
  subst h
  exact ⟨State.readHost_of_on on rfl, State.readHost_of_on on rfl,
    word_read (State.readHost_of_on on rfl) (State.readHost_of_on on rfl)⟩

end

/-! ### The statement -/

/-- Settles O49: the flags by the occupation of the slot, the attention, and the window register by register. -/
theorem flagsAndAttentionRead : Obligations.FlagsAndAttentionRead := by
  refine ⟨fun s k operation on => ?_, fun s => ?_, fun s on => ?_⟩
  · have read flag := State.readHost_flag on flag operation k
    refine ⟨fun vacant flag => ?_, fun present => ?_⟩
    · rw [read, State.flag_of_vacant vacant]; rfl
    · obtain ⟨hold, measure, attn, dirty⟩ := State.flag_of_occupied present
      rw [← hold, ← measure, ← attn]
      refine ⟨read 0, read 1, read 2, fun sound held => ?_⟩
      rw [← sound.dirty held, ← dirty]
      exact read 3
  · refine ⟨s.lowestAttn_eq_255_iff.trans s.lowestAttnSlot_eq_none_iff,
      fun k => (s.lowestAttn_eq_slot_iff k).trans (s.lowestAttnSlot_eq_some_iff k), s.pendingCauses_attention⟩
  · have read {a : BitVec 10} (ha : a.extractLsb' 6 4 = 0) := State.readHost_of_on on ha
    dsimp only
    refine ⟨⟨s.status, read rfl, ?status⟩, ⟨0#2 ++ s.pendingCauses, read rfl, ?interrupts⟩, read rfl, read rfl,
      fun o b h => ?bytes, fun low high v h => ?words, ?charged, ⟨_, read rfl, flagsRead_bits s.host.work.flags⟩,
      fun o => State.readHost_unused on, fun op n h state => ?opState, read rfl, read rfl,
      fun f n h fault => ?linkFault, fun k => State.readHost_spindle on, fun sp n h spindle => ?spindle,
      State.readHost_exchange_idle on, fun x isOpen => ?exchange, State.readHost_workState on,
      fun k stamp => State.readHost_workState on, fun k h => ?newRecord⟩
    case status =>
      obtain ⟨ready, frozen, busy, refused, empty, confirms⟩ := s.status_bits
      refine ⟨?_, ?_, busy, refused, ?_, ?_⟩
      · rw [ready, beq_iff_eq]
      · rw [frozen, beq_iff_eq]
      · rw [empty, s.drained_iff]
      · rw [confirms, Option.isSome_iff_ne_none]
    case interrupts =>
      obtain ⟨command, attention, suspect, link, supply, configFault, bit6, bit7⟩ := s.intPending_bits
      exact ⟨command, attention, suspect, link, supply, configFault, bit6, bit7, 0#2 ++ s.host.enable, read rfl,
        fun i _ => getLsbD_zero_append _ i, State.intLine_iff on⟩
    case bytes => fin_cases h <;> exact read rfl
    case words => fin_cases h <;> exact word_read (read rfl) (read rfl)
    case charged =>
      exact ⟨read rfl, (read rfl).trans (congrArg some (byteOf_eq_byteNat _ 1)),
        (read rfl).trans (congrArg some (byteOf_eq_byteNat _ 2))⟩
    case opState =>
      fin_cases h <;> exact (read rfl).trans (congrArg (fun op : OpState => some (byteNat op.code)) state)
    case linkFault =>
      fin_cases h <;> exact (read rfl).trans (congrArg (fun f : LinkFault => some (byteNat f.code)) fault)
    case spindle => fin_cases h <;> exact State.readHost_spindle on spindle
    case exchange =>
      obtain ⟨⟨inSlot, source⟩, outSlot, back⟩ := State.readHost_ends on isOpen
      refine ⟨(read rfl).trans (congrArg some (Exchange.tagByte_of_open isOpen)),
        fun i p out call => (read rfl).trans (congrArg some (Exchange.kindByte_of_call isOpen call)),
        fun k r putaway => (read rfl).trans (congrArg some (Exchange.kindByte_of_putaway isOpen putaway)),
        endBytes_read inSlot source, endBytes_read outSlot back, State.readHost_exchange on,
        fun timer => State.readHost_exchange on, fun cause suspect => ?_⟩
      cases cause <;> exact State.readHost_exchange on suspect
    case newRecord =>
      have read := State.readHost_workState on h
      dsimp only [WorkState.stamp] at read
      exact read

end Sys2Proof.Machine

/-! ## The commit queue and the commit in flight: handings, COMMIT_START and COMMIT_ATTEMPT (O50–O53) -/

namespace Sys2Proof.Machine

/-! ### Handings -/

section
variable {q : CommitQueue} {e : Entry}

/-- R152: an entry of the urgent part keeps its place, whatever class is asked. -/
theorem CommitQueue.hand_of_mem_urgent (h : e ∈ q.urgent) (c : CommitClass) : q.hand e c = q := by
  cases c with
  | urgent => exact if_pos (List.contains_iff_mem.2 h)
  | normal => exact if_pos ((q.holds_iff e).2 (.inl h))

/-- R152: an entry of the normal part keeps its place when the normal class is asked. -/
theorem CommitQueue.hand_normal_of_mem_normal (h : e ∈ q.normal) : q.hand e .normal = q :=
  if_pos ((q.holds_iff e).2 (.inr h))

/-- R152: an entry that is not urgent comes to the tail of the urgent part, out of the normal part. -/
theorem CommitQueue.hand_urgent_of_not_mem_urgent (h : e ∉ q.urgent) :
    q.hand e .urgent = { urgent := q.urgent ++ [e], normal := q.normal.filter (fun x => x != e) } :=
  if_neg (mt List.contains_iff_mem.1 h)

/-- A part that holds an entry once parts at it, and loses it alone. -/
theorem exists_filter_ne_eq {l : List Entry} (h : l.Nodup) (he : e ∈ l) :
    ∃ before after, l = before ++ e :: after ∧ l.filter (fun x => x != e) = before ++ after := by
  obtain ⟨before, after, -, parted, erased⟩ := List.exists_erase_eq he
  exact ⟨before, after, parted, (h.erase_eq_filter e).symm.trans erased⟩

/-- R151: a queue without repeats holds at most the 128 slots and CFG. -/
theorem CommitQueue.depth_le_of_nodup (h : (q.urgent ++ q.normal).Nodup) : q.depth ≤ 129 := by
  rw [CommitQueue.depth, ← List.length_append]
  exact length_le_of_nodup _ h

end

/-! ### The start of a commit -/

section
variable {s : State} {q rest : CommitQueue} {e : Entry} {cls : CommitClass}

theorem CommitQueue.TakesHead.head_eq (h : q.TakesHead e cls rest) : q.head = some (e, cls) := by
  rcases h with ⟨hu, -, rfl⟩ | ⟨hu, hn, -, rfl⟩
  · simp only [CommitQueue.head, hu]
  · simp only [CommitQueue.head, hu, hn]

theorem CommitQueue.TakesHead.tail_eq (h : q.TakesHead e cls rest) : q.tail = rest := by
  obtain ⟨urgent, normal⟩ := rest
  rcases h with ⟨hu, rfl, -⟩ | ⟨hu, hn, rfl, -⟩
  · simp only [CommitQueue.tail, hu]
  · simp only [CommitQueue.tail, hu, hn]

theorem CommitQueue.head_eq_none (hu : q.urgent = []) (hn : q.normal = []) : q.head = none := by
  simp only [CommitQueue.head, hu, hn]

/-- R153: in RUNNING with nothing in flight the head of the queue becomes the flight. -/
theorem State.startFlight_of_takesHead (running : s.opState = .running) (hf : s.flight = none)
    (h : s.queue.TakesHead e cls rest) : s.startFlight = { s with
      queue := rest
      flight := some { content := s.snapshot e, cls, attempt := 1, target := targetOf (s.newestOf e),
                       gen := generationOf (s.newestOf e), confirmSet := false } } := by
  simp only [State.startFlight, if_pos (And.intro running hf), h.head_eq, h.tail_eq]

/-- R153: in every other case nothing is taken. -/
theorem State.startFlight_of_idle
    (h : s.opState ≠ .running ∨ s.flight ≠ none ∨ (s.queue.urgent = [] ∧ s.queue.normal = [])) :
    s.startFlight = s := by
  rcases h with h | h | ⟨hu, hn⟩
  · exact if_neg fun ready => h ready.1
  · exact if_neg fun ready => h ready.2
  · simp only [State.startFlight, CommitQueue.head_eq_none hu hn, ite_self]

end

/-! ### The notice of an attempt -/

section
variable {s : State} {f : Flight} {k : Slot} {r : Record} {stamp : Stamp} {v : Verify}

/-- R158: no snapshot was taken after the claim when no claim set the stamp, or it set one out of reach. -/
theorem State.snapshotAfter_eq_false (h : ∀ from_, s.confirmFrom[k] = some from_ → 32767 < (stamp - from_).toNat) :
    s.snapshotAfter k stamp = false := by
  refine Bool.eq_false_iff.2 fun after => ?_
  obtain ⟨from_, hs, near⟩ := (s.snapshotAfter_iff k stamp).1 after
  exact absurd near (Nat.not_le.2 (h from_ hs))

/-- R81, R82, R158: what the record becomes with the notice of a commit of slot `k` at `stamp`. -/
def State.recordNoted (s : State) (k : Slot) (stamp : Stamp) (completed : Bool) : Option Confirmation :=
  (s.notify k completed (s.snapshotAfter k stamp)).confirmation

/-- R81, R158: a record that awaits the slot takes the notice of a snapshot after its claim. -/
theorem State.recordNoted_of_awaited {c : Confirmation} {from_ : Stamp} (completed : Bool)
    (hc : s.confirmation = some c) (hm : (k, false) ∈ c.waiting) (hs : s.confirmFrom[k] = some from_)
    (near : (stamp - from_).toNat ≤ 32767) :
    s.recordNoted k stamp completed = some (if completed then c.markSlot k else c.noteFailure k) :=
  s.notify_waiting k completed stamp ((s.snapshotAfter_iff k stamp).2 ⟨from_, hs, near⟩) c hc hm

/-- R81, R158: every other notice leaves the record. -/
theorem State.recordNoted_of_other (completed : Bool)
    (h : (∀ c, s.confirmation = some c → (k, false) ∉ c.waiting) ∨
      ∀ from_, s.confirmFrom[k] = some from_ → 32767 < (stamp - from_).toNat) :
    s.recordNoted k stamp completed = s.confirmation :=
  s.notify_other k completed stamp (h.imp_right State.snapshotAfter_eq_false)

/-- R81, R158: the notice reads the record and the confirm-from stamps alone. -/
theorem State.recordNoted_congr {t : State} {completed : Bool} (hr : t.confirmation = s.confirmation)
    (hs : t.confirmFrom = s.confirmFrom) : t.recordNoted k stamp completed = s.recordNoted k stamp completed := by
  have after : t.snapshotAfter k stamp = s.snapshotAfter k stamp := by unfold State.snapshotAfter; rw [hs]
  unfold State.recordNoted State.notify
  rw [after]
  cases hc : s.confirmation with
  | none => simp only [hr, hc]
  | some c => simp only [hr, hc, apply_ite State.confirmation]

theorem State.completeFlight_confirmation (hc : f.content = .slot k r stamp) :
    (s.completeFlight f).confirmation = s.recordNoted k stamp true := by
  simp only [State.completeFlight, hc]
  exact State.recordNoted_congr (by simp) (by simp)

theorem State.failFlight_confirmation (hc : f.content = .slot k r stamp) :
    (s.failFlight f).confirmation = s.recordNoted k stamp false := by
  simp only [State.failFlight, hc]
  exact State.recordNoted_congr (by simp) (by simp)

/-- R82: the first failure notice names the faulting slot, and a later one does not replace it. -/
theorem Confirmation.noteFailure_of_none {c : Confirmation} (h : c.failed = none) (k : Slot) :
    c.noteFailure k = { c with failed := some k } := by
  simp only [Confirmation.noteFailure, h]

theorem Confirmation.noteFailure_of_failed {c : Confirmation} (h : c.failed ≠ none) (k : Slot) :
    c.noteFailure k = c := by
  obtain ⟨j, hj⟩ := Option.ne_none_iff_exists'.1 h
  simp only [Confirmation.noteFailure, hj]

/-! ### The end of an attempt -/

theorem exec_commitAttempt_later (s : State) (v : Verify) :
    exec (.commitAttempt v .later) s = .next (s.endAttempt v) := rfl

theorem exec_commitAttempt_of_none (hf : s.flight = none) : exec (.commitAttempt v .later) s = .next s := by
  simp only [exec_commitAttempt_later, State.endAttempt, hf]

/-- R154, R155: a verify that passes completes the commit. -/
theorem exec_commitAttempt_pass (hf : s.flight = some f) :
    exec (.commitAttempt .pass .later) s = .next (s.completeFlight f) := by
  simp only [exec_commitAttempt_later, State.endAttempt, hf]

/-- R154: a verify that fails before the third attempt is followed by another attempt. -/
theorem exec_commitAttempt_retries (hf : s.flight = some f) (h : f.attempt < 3) :
    exec (.commitAttempt .fail .later) s = .next (s.retryFlight f) := by
  simp only [exec_commitAttempt_later, State.endAttempt, hf]
  exact congrArg _ (if_pos h)

/-- R154, R156: the third verify that fails is the failure. -/
theorem exec_commitAttempt_fails (hf : s.flight = some f) (h : 3 ≤ f.attempt) :
    exec (.commitAttempt .fail .later) s = .next (s.failFlight f) := by
  simp only [exec_commitAttempt_later, State.endAttempt, hf]
  exact congrArg _ (if_neg (Nat.not_lt.2 h))

/-- R154: the next attempt changes the flight and the array alone. -/
theorem State.retryFlight_eq (s : State) (f : Flight) : s.retryFlight f =
    { s with flight := (s.retryFlight f).flight, slotCopies := (s.retryFlight f).slotCopies
             cfgCopies := (s.retryFlight f).cfgCopies } := by
  apply State.ext <;> simp

/-- R155, R161: the parts of the state that the completion of a slot's commit changes. -/
theorem State.completeFlight_slot_eq (hc : f.content = .slot k r stamp) : s.completeFlight f =
    { s with flight := (s.completeFlight f).flight, image := (s.completeFlight f).image
             slotCopies := (s.completeFlight f).slotCopies, newest := (s.completeFlight f).newest
             confirmation := (s.completeFlight f).confirmation } := by
  apply State.ext <;>
    simp [(State.completeFlight_newest_slot hc).2, State.completeFlight_cfgCopies, s.writeTarget_cfgCopies_slot true hc]

/-- R155, R161: the completion of the configuration's commit. -/
theorem State.completeFlight_cfg_eq {c : Configuration} (hc : f.content = .cfg c) : s.completeFlight f =
    { s with flight := none, cfgCopies := s.cfgCopies.put f.target (.valid c f.gen)
             cfgNewest := some ⟨f.target, f.gen⟩ } := by
  simp only [State.completeFlight, State.writeTarget, hc, if_true]

theorem State.failFlight_host_slot (hc : f.content = .slot k r stamp) : (s.failFlight f).host = s.host := by
  simp [State.failFlight, hc]

/-- R156, R161: the parts of the state that the failure of a slot's commit changes. -/
theorem State.failFlight_slot_eq (hc : f.content = .slot k r stamp) : s.failFlight f =
    { s with flight := (s.failFlight f).flight, image := (s.failFlight f).image
             slotCopies := (s.failFlight f).slotCopies, queue := (s.failFlight f).queue
             confirmation := (s.failFlight f).confirmation } := by
  apply State.ext <;>
    simp [State.failFlight_host_slot hc, State.failFlight_cfgCopies, s.writeTarget_cfgCopies_slot false hc]

/-- R156: a removal filters both parts. -/
theorem CommitQueue.remove_eq (q : CommitQueue) (e : Entry) : q.remove e =
    { urgent := q.urgent.filter (fun x => x ≠ e), normal := q.normal.filter (fun x => x ≠ e) } := by
  simp only [CommitQueue.remove, bne, beq_eq_decide, decide_not]

/-- R156, R161: the failure of the configuration's commit. -/
theorem State.failFlight_cfg_eq {c : Configuration} (hc : f.content = .cfg c) : s.failFlight f =
    { s with flight := none, cfgCopies := s.cfgCopies.put f.target .invalid, queue := s.queue.remove .cfg
             host := { s.host with causes := { s.host.causes with configFault := true } } } := by
  simp only [State.failFlight, State.writeTarget, hc, Bool.false_eq_true, if_false]

end

/-! ### The statements -/

/-- Settles O50: the rows of R152 by the part that holds the entry, and the law of R151. -/
theorem handingTable : Obligations.HandingTable := by
  intro q e cls distinct
  have handed := q.hand_nodup e cls distinct
  obtain ⟨-, distinctNormal, apart⟩ := List.nodup_append.1 distinct
  refine ⟨fun hu => q.hand_of_mem_urgent hu cls, fun hn => ⟨q.hand_normal_of_mem_normal hn, ?_⟩, fun hu hn => ⟨?_, ?_⟩,
    handed, q.hand_holds e cls, CommitQueue.depth_le_of_nodup handed⟩
  · have hu : e ∉ q.urgent := fun hu => apart e hu e hn rfl
    rw [CommitQueue.hand_urgent_of_not_mem_urgent hu]
    exact ⟨rfl, exists_filter_ne_eq distinctNormal hn⟩
  · rw [CommitQueue.hand_urgent_of_not_mem_urgent hu, filter_ne_of_not_mem hn]
  · exact CommitQueue.hand_normal_of_not_holds (Bool.eq_false_iff.2 (mt (q.holds_iff e).1 (not_or.2 ⟨hu, hn⟩)))

/-- Settles O51: the head becomes the flight, its copy and generation by the newest copy of the entry. -/
theorem commitStartTakesTheHead : Obligations.CommitStartTakesTheHead := by
  refine ⟨fun s e cls rest content newest running hf hq subject => ?_, fun s h => congrArg _ (s.startFlight_of_idle h)⟩
  have taken : s.snapshot e = content ∧ s.newestOf e = newest := by
    rcases subject with ⟨k, rfl, rfl, rfl⟩ | ⟨c, rfl, hc, rfl, rfl⟩
    · exact ⟨rfl, rfl⟩
    · exact ⟨by rw [State.snapshot, hc, Option.getD_some], rfl⟩
  obtain ⟨rfl, rfl⟩ := taken
  refine ⟨_, congrArg _ (State.startFlight_of_takesHead running hf hq), rfl, rfl, rfl, rfl, fun h => ?_, fun g h => ?_,
    fun g h => ?_⟩ <;> rw [h] <;> exact ⟨rfl, rfl⟩

/-- Settles O52: the completion of a slot's commit part by part, and of the configuration's. -/
theorem commitAttemptPasses : Obligations.CommitAttemptPasses := by
  refine ⟨fun s f k r stamp hf hc => ?_, fun s f c hf hc => ?_⟩
  · have slots := State.slot_of_image_set (State.completeFlight_image (s := s) hc)
    have copies := s.completeFlight_slotCopies f
    have newest := (State.completeFlight_newest_slot (s := s) hc).1
    have record := State.completeFlight_confirmation (s := s) hc
    obtain ⟨written, others⟩ := s.writeTarget_slotCopies f true k r stamp hc
    refine ⟨_, exec_commitAttempt_pass hf, s.completeFlight_flight f, by rw [slots, if_pos rfl],
      fun j hj => ⟨by rw [slots, if_neg hj], by rw [copies, others j hj], ?_⟩, by rw [copies, written]; rfl,
      by rw [newest]; simp, fun c from_ hr hm hs near => ?_, fun h => record.trans (State.recordNoted_of_other true h),
      State.completeFlight_slot_eq hc⟩
    · have apart : (k : Nat) ≠ j := fun e => hj (Fin.ext e.symm)
      rw [newest]; simp [apart]
    · exact record.trans (State.recordNoted_of_awaited true hr hm hs near)
  · rw [exec_commitAttempt_pass hf, State.completeFlight_cfg_eq hc]

/-- Settles O53: the retry, the failure of a slot's commit and of the configuration's, and the record in the step. -/
theorem commitAttemptFails : Obligations.CommitAttemptFails := by
  refine ⟨fun s f hf early => ?_, fun s f k r stamp hf last hc => ?_, fun s f c hf last hc => ?_,
    fun s t v h => ?_, fun s v hf => exec_commitAttempt_of_none hf⟩
  · exact ⟨_, exec_commitAttempt_retries hf early, rfl, s.writeTarget_false_slotCopies f,
      s.writeTarget_false_cfgCopies f, s.retryFlight_eq f⟩
  · have slots := State.slot_of_image_set (State.failFlight_image (s := s) hc)
    have copies := s.failFlight_slotCopies f
    have queue := State.failFlight_queue_slot (s := s) hc
    have record := State.failFlight_confirmation (s := s) hc
    obtain ⟨written, others⟩ := s.writeTarget_slotCopies f false k r stamp hc
    refine ⟨_, exec_commitAttempt_fails hf last, s.failFlight_flight f, by rw [slots, if_pos rfl],
      fun j hj => ⟨by rw [slots, if_neg hj], by rw [copies, others j hj]⟩, by rw [copies, written]; rfl,
      fun claimed => by rw [queue, if_pos claimed],
      fun unclaimed => by
        rw [queue, if_neg (Bool.eq_false_iff.1 unclaimed), CommitQueue.remove_eq]; exact ⟨rfl, rfl⟩,
      fun c from_ hr hm hs near => ?_, fun h => record.trans (State.recordNoted_of_other false h),
      State.failFlight_slot_eq hc⟩
    have noted : (s.failFlight f).confirmation = some (c.noteFailure k) :=
      record.trans (State.recordNoted_of_awaited false hr hm hs near)
    exact ⟨fun first => by rw [noted, Confirmation.noteFailure_of_none first],
      fun later => by rw [noted, Confirmation.noteFailure_of_failed later]⟩
  · rw [exec_commitAttempt_fails hf last, State.failFlight_cfg_eq hc,
      CommitQueue.remove_eq]
  · rw [exec_commitAttempt_later] at h
    cases h
    rfl

end Sys2Proof.Machine

/-! ## The supply: rises and falls of VCC, the power-off level and the settle interval (O3–O5) -/

namespace Sys2Proof.Machine

/-! ### What the loss of power clears -/

section
variable (s : State) (op : OpState) (settle : Bool)

/-- R1: every slot of a cleared image is blank. -/
theorem State.volatileCleared_slot (k : Slot) : (s.volatileCleared op settle).slot k = SlotState.blank := by
  simp [State.slot, State.volatileCleared]

/-- R38: the index over a cleared image is empty. -/
theorem State.volatileCleared_callIndex (n : Nat) : (s.volatileCleared op settle).callIndex n = [] := by
  refine List.eq_nil_iff_forall_not_mem.2 fun k hk => ?_
  rw [State.mem_callIndex, State.record_blank rfl] at hk
  exact hk.1 rfl

/-- R60, R73: with no configuration applied no pocket is in the ring. -/
theorem State.volatileCleared_pocketReport (p : Nat) : (s.volatileCleared op settle).pocketReport p = (0, 255) :=
  if_pos p.eq_zero_or_pos

/-- R141: no slot of a cleared image calls for attention. -/
theorem State.volatileCleared_lowestAttn : (s.volatileCleared op settle).lowestAttn = 255 := by
  rw [State.lowestAttn_eq_255_iff, State.lowestAttnSlot_eq_none_iff]
  intro k
  rw [State.volatileCleared_slot]; rfl

/-- R148: no cause is pending, the level cause ATTENTION included. -/
theorem State.volatileCleared_pendingCauses : (s.volatileCleared op settle).pendingCauses = 0 := by
  have calm : (s.volatileCleared op settle).attention = false := by
    refine Bool.eq_false_iff.2 fun calls => ?_
    obtain ⟨k, hk⟩ := (State.attention_iff _).1 calls
    rw [State.volatileCleared_slot] at hk
    cases hk
  have idle : (s.volatileCleared op settle).host.causes = Causes.clear := rfl
  rw [State.pendingCauses, calm, idle]
  decide

end

/-! ### Power-on and power-off -/

section
variable {s : State}

/-- R163: the rise of VCC from OFF. -/
theorem exec_vccRise_of_off (off : s.opState = .off) : exec .vccRise s = .next (s.volatileCleared .settling true) := by
  change Host.Outcome.next s.supplyRises = _
  rw [State.supplyRises, off]

/-- R167: the fall to the power-off level loses the volatile state, from each of the three states it can meet. -/
theorem exec_powerOff_of_on (on : s.opState = .frozen ∨ s.opState = .settling ∨ s.opState = .scanning) :
    exec .powerOff s = .next (s.volatileCleared .off false) := by
  change Host.Outcome.next s.losePower = _
  rcases on with h | h | h <;> rw [State.losePower, h]

end

/-- In OFF the outputs are low and the bus is not served (R96, R113, R136, R147). -/
theorem State.outputs_of_off {s : State} (off : s.opState = .off) :
    s.rqfull = false ∧ s.anrdy = false ∧ s.anLines = 0 ∧ s.intLine = false ∧
      (∀ a, s.readWindow a = none) ∧ ∀ a, s.readFlag a = none := by
  simp [State.rqfull, State.anrdy, State.anLines, State.intLine, State.readWindow, State.readFlag, off]

/-- Settles O3: both events clear the volatile state, and keep the array and the /RESET pin. -/
theorem powerCycle : Obligations.PowerCycle := by
  refine ⟨fun s off => ⟨_, exec_vccRise_of_off off, rfl, rfl, rfl, s.volatileCleared_slot _ _,
    s.volatileCleared_callIndex _ _, s.volatileCleared_pocketReport _ _, rfl, rfl, rfl, rfl, rfl, rfl, rfl, rfl, rfl,
    rfl, fun k => Vector.getElem_replicate .., s.volatileCleared_lowestAttn _ _, s.volatileCleared_pendingCauses _ _,
    rfl, rfl, rfl⟩, fun s on => ⟨_, exec_powerOff_of_on on, rfl, rfl, rfl, rfl, rfl, State.outputs_of_off rfl⟩⟩

/-! ### The settle interval -/

/-- Settles O5: each row of R163 by the state that the event meets. -/
theorem supplyRisesAndSettles : Obligations.SupplyRisesAndSettles := by
  refine ⟨fun s frozen => ?_, fun s settling => ?_, fun s settling runs lost => ?_,
    fun s t u settling runs held ht started => ?_⟩
  · change Host.Outcome.next s.supplyRises = _
    rw [State.supplyRises, frozen]; rfl
  · change Host.Outcome.next s.supplyRises = _
    rw [State.supplyRises, settling]
  · change Host.Outcome.next s.endSettle = _
    rw [State.endSettle, if_pos ⟨settling, runs⟩, if_neg (Bool.eq_false_iff.1 lost)]
  · change Host.Outcome.next s.endSettle = _
    rw [State.endSettle, if_pos ⟨settling, runs⟩, if_pos held, ← ht]
    exact started

/-! ### The fall of VCC -/

section
variable {q : CommitQueue} {e : Entry}

/-- R159: an entry that already waits as high keeps its place. -/
theorem CommitQueue.giveBack_of_mem_urgent (h : e ∈ q.urgent) (c : CommitClass) : q.giveBack e c = q :=
  if_pos (List.contains_iff_mem.2 h)

theorem CommitQueue.giveBack_normal_of_mem_normal (hu : e ∉ q.urgent) (hn : e ∈ q.normal) :
    q.giveBack e .normal = q := by
  simp only [CommitQueue.giveBack, List.contains_iff_mem, if_neg hu, if_pos hn]

/-- R159: an urgent entry returns to the head of the urgent part, out of the normal one. -/
theorem CommitQueue.giveBack_urgent_of_not_mem (hu : e ∉ q.urgent) : q.giveBack e .urgent =
    { urgent := e :: q.urgent, normal := q.normal.filter (fun x => x ≠ e) } := by
  simp only [CommitQueue.giveBack, List.contains_iff_mem, if_neg hu, bne, beq_eq_decide, decide_not]

/-- R159: a normal entry returns to the head of the normal part. -/
theorem CommitQueue.giveBack_normal_of_not_mem (hu : e ∉ q.urgent) (hn : e ∉ q.normal) :
    q.giveBack e .normal = { urgent := q.urgent, normal := e :: q.normal } := by
  simp only [CommitQueue.giveBack, List.contains_iff_mem, if_neg hu, if_neg hn]

end

section
variable {s : State} {f : Flight}

theorem State.abandonFlight_of_flight (h : s.flight = some f) : s.abandonFlight =
    { s.writeTarget f false with flight := none, queue := s.queue.giveBack f.content.entry f.cls } := by
  simp only [State.abandonFlight, h]

theorem State.abandonFlight_flight (s : State) : s.abandonFlight.flight = none := by
  unfold State.abandonFlight
  split <;> [assumption; rfl]

/-- R165: from SETTLING a fall stops the interval. -/
theorem exec_vccFall_of_settling (settling : s.opState = .settling) :
    exec .vccFall s = .next { s with settleRunning := false, lostAnswer := s.lostMark } := by
  change Host.Outcome.next s.supplyFalls = _
  rw [State.supplyFalls, settling]

/-- R165: from SCANNING a fall leads back to SETTLING. -/
theorem exec_vccFall_of_scanning (scanning : s.opState = .scanning) :
    exec .vccFall s = .next { s with opState := .settling, settleRunning := false, lostAnswer := s.lostMark } := by
  change Host.Outcome.next s.supplyFalls = _
  rw [State.supplyFalls, scanning]

/-- R165: from RUNNING it freezes the part. -/
theorem exec_vccFall_of_running (running : s.opState = .running) : exec .vccFall s = .next s.freeze := by
  change Host.Outcome.next s.supplyFalls = _
  rw [State.supplyFalls, running]

/-- R159, R165: the queue and the array of a frozen part are those of the abandoned flight. -/
theorem State.freeze_commits (s : State) : s.freeze.queue = s.abandonFlight.queue ∧
    s.freeze.slotCopies = s.abandonFlight.slotCopies ∧ s.freeze.cfgCopies = s.abandonFlight.cfgCopies := ⟨rfl, rfl, rfl⟩

theorem State.freeze_lostAnswer (s : State) : s.freeze.lostAnswer = s.lostMark := rfl

/-- R146, R165: of the Host Port the passage to FROZEN raises SUPPLY alone. -/
theorem State.freeze_host (s : State) :
    s.freeze.host = { s.host with causes := { s.host.causes with supply := true } } := by
  simp [State.freeze, State.raiseSupply]

/-- R165: what the passage to FROZEN leaves unchanged. -/
theorem State.freeze_eq (s : State) : s.freeze =
    { s with opState := s.freeze.opState, flight := s.freeze.flight, host := s.freeze.host, link := s.freeze.link
             queue := s.freeze.queue, lostAnswer := s.freeze.lostAnswer, slotCopies := s.freeze.slotCopies
             cfgCopies := s.freeze.cfgCopies } := by
  apply State.ext <;> simp [State.freeze]

end

/-- Settles O4: RUNNING by the flight that is abandoned, SETTLING and SCANNING by the mark alone. -/
theorem supplyFalls : Obligations.SupplyFalls := by
  refine ⟨fun s running => ?_,
    fun s settling => ⟨_, exec_vccFall_of_settling settling, State.answerMarked rfl, rfl⟩,
    fun s scanning => ⟨_, exec_vccFall_of_scanning scanning, State.answerMarked rfl, rfl⟩⟩
  obtain ⟨queue, slotCopies, cfgCopies⟩ := s.freeze_commits
  refine ⟨_, exec_vccFall_of_running running, rfl, s.abandonFlight_flight, s.freeze_host,
    by rw [s.freeze_link, beq_eq_decide], State.answerMarked s.freeze_lostAnswer, fun idle => ?_, fun f hf => ?_,
    s.freeze_eq⟩
  · rw [queue, slotCopies, cfgCopies, s.abandonFlight_none idle]
    exact ⟨rfl, rfl, rfl⟩
  · rw [queue, slotCopies, cfgCopies, State.abandonFlight_of_flight hf]
    refine ⟨fun hu => CommitQueue.giveBack_of_mem_urgent hu _, fun hu hc => ?_, fun hu hc hn => ?_,
      fun hu hc hn => ?_, s.writeTarget_false_slotCopies f, s.writeTarget_false_cfgCopies f⟩ <;> simp only [hc]
    · rw [CommitQueue.giveBack_urgent_of_not_mem hu]; exact ⟨rfl, rfl⟩
    · exact CommitQueue.giveBack_normal_of_mem_normal hu hn
    · rw [CommitQueue.giveBack_normal_of_not_mem hu hn]; exact ⟨rfl, rfl⟩

end Sys2Proof.Machine

/-! ## What the scan's repairs do, and the completion of the scan (O54, O55) -/

namespace Sys2Proof.Machine

/-! ### Location repairs -/

/-- R170: what a location repair makes of a slot. -/
def SlotState.doubted (P : Nat) (x : SlotState) : SlotState :=
  { x with
    fields := { x.fields with location := .unknown (keptPocket P x.fields.location.pocketPart) }
    attn := true, dirty := true }

theorem ScanWork.repairLocation_eq (w : ScanWork) (P : Nat) (k : Slot) :
    w.repairLocation P k = ⟨w.image.set k ((w.image[k]).doubted P), w.handings ++ [(k, .urgent)]⟩ := rfl

theorem keptPocket_keptPocket (P : Nat) (q : Option Nat) : keptPocket P (keptPocket P q) = keptPocket P q := by
  simp [keptPocket, Option.filter_filter]

/-- `w'` is `w` with the locations of the slots of `D` repaired, and every other slot as it was. -/
def ScanWork.Doubts (P : Nat) (w : ScanWork) (D : Slot → Prop) (w' : ScanWork) : Prop :=
  ∀ k : Slot, (¬ D k → w'.image[k] = w.image[k]) ∧ (D k → w'.image[k] = (w.image[k]).doubted P)

/-- A tool stands at the location. -/
def ScanWork.Stands (w : ScanWork) (k : Slot) (l : Location) : Prop :=
  (w.record k).occupied = true ∧ (w.record k).location = l

/-- A tool that a location repair would change. -/
def ScanWork.Doubtful (P : Nat) (w : ScanWork) (k : Slot) : Prop :=
  (w.record k).occupied = true ∧ (w.record k).location ≠ .unknown (keptPocket P (w.record k).location.pocketPart)

/-- `w'` is `w` after location repairs of the slots of `X`, in that order, each of which it changed. -/
structure ScanWork.Relocates (P : Nat) (w : ScanWork) (X : List Slot) (w' : ScanWork) : Prop where
  doubts : w.Doubts P (· ∈ X) w'
  handings : w'.handings = w.handings ++ X.map (·, .urgent)
  nodup : X.Nodup
  doubtful : ∀ k ∈ X, w.Doubtful P k

section
variable {P : Nat} {w w' w'' : ScanWork} {D : Slot → Prop} {k : Slot} {l l' : Location} {X Y : List Slot}

theorem ScanWork.Stands.unique (h : w.Stands k l) (h' : w.Stands k l') : l = l' := h.2.symm.trans h'.2

/-- R170: a tool whose location is not UNKNOWN is changed by a repair. -/
theorem ScanWork.Stands.doubtful (h : w.Stands k l) (hl : l.isUnknown = false) : w.Doubtful P k :=
  ⟨h.1, fun e => by rw [h.2] at e; rw [e] at hl; cases hl⟩

/-- R170, pass 2: so is one whose UNKNOWN location names a pocket beyond the ring. -/
theorem ScanWork.Stands.doubtful_of_beyond {p : Nat} (h : w.Stands k (.unknown (some p))) (hp : P < p) :
    w.Doubtful P k := by
  refine ⟨h.1, fun e => ?_⟩
  rw [h.2] at e
  exact absurd (keptPocket_le P _ p (Location.unknown.inj e).symm) (Nat.not_le.2 hp)

theorem ScanWork.Doubts.occupied (h : w.Doubts P D w') (k : Slot) :
    (w'.record k).occupied = (w.record k).occupied := by
  by_cases hk : D k
  · rw [ScanWork.record, (h k).2 hk]; rfl
  · rw [ScanWork.record, (h k).1 hk]; rfl

theorem ScanWork.Doubts.size (h : w.Doubts P D w') (k : Slot) : (w'.record k).size = (w.record k).size := by
  by_cases hk : D k
  · rw [ScanWork.record, (h k).2 hk]; rfl
  · rw [ScanWork.record, (h k).1 hk]; rfl

theorem ScanWork.Doubts.record_of_not (h : w.Doubts P D w') (hk : ¬ D k) : w'.record k = w.record k := by
  rw [ScanWork.record, (h k).1 hk]; rfl

theorem ScanWork.Doubts.location_of (h : w.Doubts P D w') (hk : D k) :
    (w'.record k).location = .unknown (keptPocket P (w.record k).location.pocketPart) := by
  rw [ScanWork.record, (h k).2 hk]; rfl

/-- A tool stands where it did, unless its location has been repaired. -/
theorem ScanWork.Doubts.stands_iff (h : w.Doubts P D w') (hl : l.isUnknown = false) :
    w'.Stands k l ↔ w.Stands k l ∧ ¬ D k := by
  rw [ScanWork.Stands, h.occupied]
  by_cases hk : D k
  · rw [h.location_of hk]
    exact iff_of_false (fun e => by rw [← e.2] at hl; cases hl) fun e => e.2 hk
  · rw [h.record_of_not hk]
    exact (and_iff_left hk).symm

theorem ScanWork.Doubts.not_doubtful (h : w.Doubts P D w') (hk : D k) : ¬ w'.Doubtful P k := by
  intro hd
  rw [ScanWork.Doubtful, h.location_of hk] at hd
  exact hd.2 (by rw [Location.pocketPart, keptPocket_keptPocket])

/-- Repairs of other slots leave a slot as doubtful as it was. -/
theorem ScanWork.Doubts.doubtful_iff (h : w.Doubts P D w') : w'.Doubtful P k ↔ w.Doubtful P k ∧ ¬ D k := by
  by_cases hk : D k
  · exact iff_of_false (h.not_doubtful hk) fun e => e.2 hk
  · rw [ScanWork.Doubtful, h.record_of_not hk]
    exact (and_iff_left hk).symm

theorem ScanWork.Relocates.refl (P : Nat) (w : ScanWork) : w.Relocates P [] w :=
  ⟨fun _ => ⟨fun _ => rfl, fun hk => nomatch hk⟩, (List.append_nil _).symm, List.nodup_nil, fun _ hk => nomatch hk⟩

theorem ScanWork.Relocates.single (h : w.Doubtful P k) : w.Relocates P [k] (w.repairLocation P k) where
  doubts j := by
    have slot : (w.repairLocation P k).image[j] = if j = k then (w.image[k]).doubted P else w.image[j] :=
      ScanWork.image_set
    rw [slot]
    by_cases e : j = k
    · subst e; simp
    · simp [e]
  handings := rfl
  nodup := List.nodup_singleton k
  doubtful j hj := List.mem_singleton.1 hj ▸ h

theorem ScanWork.Relocates.trans (h : w.Relocates P X w') (h' : w'.Relocates P Y w'') :
    w.Relocates P (X ++ Y) w'' where
  doubts k := by
    refine ⟨fun hk => ?_, fun hk => ?_⟩
    · obtain ⟨hX, hY⟩ := not_or.1 (mt List.mem_append.2 hk)
      rw [(h'.doubts k).1 hY, (h.doubts k).1 hX]
    · rcases List.mem_append.1 hk with hX | hY
      · rw [(h'.doubts k).1 fun hY => h.doubts.not_doubtful hX (h'.doubtful k hY), (h.doubts k).2 hX]
      · rw [(h'.doubts k).2 hY, (h.doubts k).1 fun hX => h.doubts.not_doubtful hX (h'.doubtful k hY)]
  handings := by rw [h'.handings, h.handings, List.map_append, List.append_assoc]
  nodup := List.nodup_append'.2 ⟨h.nodup, h'.nodup, fun k hX hY => h.doubts.not_doubtful hX (h'.doubtful k hY)⟩
  doubtful k hk := (List.mem_append.1 hk).elim (h.doubtful k) fun hY => (h.doubts.doubtful_iff.1 (h'.doubtful k hY)).1

end

/-! ### The first four passes -/

/-- A tool stands at the location above another one that does. -/
def ScanWork.StandsAbove (w : ScanWork) (k : Slot) (l : Location) : Prop := w.Stands k l ∧ ∃ j, j < k ∧ w.Stands j l

section
variable {P : Nat} {v w : ScanWork} {k : Slot} {l : Location}

theorem sorted_filter_slots (p : Slot → Bool) : (slots.filter p).Pairwise (· < ·) :=
  (List.pairwise_lt_finRange 128).filter p

/-- R170: a pass that repairs the location of the slots of `C`, judged at their turn, repairs them in slot order. -/
theorem pass_relocates {f : ScanWork → Slot → ScanWork} {C : Slot → Prop} (doubtful : ∀ k, C k → v.Doubtful P k)
    (step : ∀ w k, v.Doubts P (fun j => j < k ∧ C j) w →
      (C k → f w k = w.repairLocation P k) ∧ (¬ C k → f w k = w)) :
    ∃ X, X.Pairwise (· < ·) ∧ (∀ k, k ∈ X ↔ C k) ∧ v.Relocates P X (slots.foldl f v) := by
  classical
  obtain ⟨slot, handings⟩ := scanPass f (fun k x => if C k then x.doubted P else x) (fun k => decide (C k)) .urgent v
    fun w k before => by
      have passed : v.Doubts P (fun j => j < k ∧ C j) w := fun j => by
        rw [before]
        by_cases hj : j < k <;> by_cases hC : C j <;> simp [hj, hC]
      obtain ⟨repaired, left⟩ := step w k passed
      by_cases hC : C k
      · rw [repaired hC, ScanWork.repairLocation_eq]; simp [hC]
      · rw [left hC]; simp [hC]
  have order := sorted_filter_slots fun k => decide (C k)
  have mem (k : Slot) : k ∈ slots.filter (fun k => decide (C k)) ↔ C k := by simp [mem_slots]
  refine ⟨_, order, mem, fun k => ?_, handings, order.imp ne_of_lt, fun k hk => doubtful k ((mem k).1 hk)⟩
  simp only [mem, slot]
  exact ⟨fun hC => if_neg hC, fun hC => if_pos hC⟩

/-- R170, pass 1: the tools in transit. -/
theorem scanTransit_pass (P : Nat) (v : ScanWork) : ∃ X, X.Pairwise (· < ·) ∧
    (∀ k, k ∈ X ↔ ∃ p, v.Stands k (.transitIn p) ∨ v.Stands k (.transitBack p)) ∧
    v.Relocates P X (slots.foldl (scanTransit P) v) := by
  refine pass_relocates (fun k ⟨p, hk⟩ => hk.elim (·.doubtful rfl) (·.doubtful rfl)) fun w k passed => ?_
  have same : w.record k = v.record k := passed.record_of_not (by simp)
  unfold scanTransit
  rw [same]
  refine ⟨?_, fun hC => ?_⟩
  · rintro ⟨p, ⟨tool, hl⟩ | ⟨tool, hl⟩⟩ <;> simp only [hl, tool, if_true]
  · split
    · rename_i p hl; exact if_neg fun tool => hC ⟨p, .inl ⟨tool, hl⟩⟩
    · rename_i p hl; exact if_neg fun tool => hC ⟨p, .inr ⟨tool, hl⟩⟩
    · rfl

/-- R170, pass 2: the tools that name a pocket beyond the ring. -/
theorem scanBeyond_pass (P : Nat) (v : ScanWork) : ∃ X, X.Pairwise (· < ·) ∧
    (∀ k, k ∈ X ↔ ∃ p, P < p ∧ (v.Stands k (.pocket p) ∨ v.Stands k (.unknown (some p)))) ∧
    v.Relocates P X (slots.foldl (scanBeyond P) v) := by
  refine pass_relocates (fun k ⟨p, hp, hk⟩ => hk.elim (·.doubtful rfl) (·.doubtful_of_beyond hp)) fun w k passed => ?_
  have same : w.record k = v.record k := passed.record_of_not (by simp)
  unfold scanBeyond
  rw [same]
  refine ⟨?_, fun hC => ?_⟩
  · rintro ⟨p, hp, ⟨tool, hl⟩ | ⟨tool, hl⟩⟩ <;> simp [hl, tool, hp]
  · split
    · rename_i p hl
      refine if_neg fun hc => ?_
      rw [Bool.and_eq_true, decide_eq_true_eq] at hc
      exact hC ⟨p, hc.2, .inl ⟨hc.1, hl⟩⟩
    · rename_i p hl
      refine if_neg fun hc => ?_
      rw [Bool.and_eq_true, decide_eq_true_eq] at hc
      exact hC ⟨p, hc.2, .inr ⟨hc.1, hl⟩⟩
    · rfl

/-- The lowest slot with a property that some slot has. -/
theorem exists_least_slot {Q : Slot → Prop} {j : Slot} (h : Q j) : ∃ i, i ≤ j ∧ Q i ∧ ∀ m, m < i → ¬ Q m := by
  obtain ⟨i, hi, least⟩ := WellFounded.has_min (wellFounded_lt (α := Slot)) {m | Q m} ⟨j, h⟩
  exact ⟨i, not_lt.1 fun lt => least j h lt, hi, fun m hm hQ => least m hQ hm⟩

/-- R170, passes 3 and 4: the repairs of the slots below that stand above another leave the lowest holder, so that the
slot still stands above one. -/
theorem ScanWork.Doubts.standsAbove_iff {C : Slot → Prop} (hl : l.isUnknown = false)
    (hC : ∀ j, C j → v.Stands j l → v.StandsAbove j l) (h : v.Doubts P (fun j => j < k ∧ C j) w) :
    w.StandsAbove k l ↔ v.StandsAbove k l := by
  simp only [ScanWork.StandsAbove, h.stands_iff hl, lt_self_iff_false, false_and, not_false_iff, and_true]
  refine and_congr_right fun _ => ⟨fun ⟨j, lt, hj, _⟩ => ⟨j, lt, hj⟩, fun ⟨j, lt, hj⟩ => ?_⟩
  obtain ⟨i, le, hi, least⟩ := exists_least_slot (Q := (v.Stands · l)) hj
  refine ⟨i, lt_of_le_of_lt le lt, hi, fun ⟨_, hCi⟩ => ?_⟩
  obtain ⟨-, m, hm, hQ⟩ := hC i hCi hi
  exact least m hm hQ

theorem ScanWork.sharedBelow_iff_standsAbove (hk : w.Stands k l) : w.sharedBelow k = true ↔ w.StandsAbove k l := by
  rw [w.sharedBelow_iff, hk.2]
  exact (and_iff_right hk).symm

/-- R170, pass 3: the tools in the pocket of a lower one. -/
theorem scanShared_pass (P : Nat) (v : ScanWork) : ∃ X, X.Pairwise (· < ·) ∧
    (∀ k, k ∈ X ↔ ∃ p, v.StandsAbove k (.pocket p)) ∧ v.Relocates P X (slots.foldl (scanShared P) v) := by
  refine pass_relocates (fun k ⟨p, hk⟩ => hk.1.doubtful rfl) fun w k passed => ?_
  have above (p) : w.StandsAbove k (.pocket p) ↔ v.StandsAbove k (.pocket p) :=
    passed.standsAbove_iff rfl fun j ⟨q, hq⟩ hj => by cases hj.unique hq.1; exact hq
  simp only [← above]
  unfold scanShared
  refine ⟨fun ⟨p, hp⟩ => ?_, fun hC => ?_⟩
  · simp only [hp.1.2]
    exact if_pos (by rw [hp.1.1, (ScanWork.sharedBelow_iff_standsAbove hp.1).2 hp]; rfl)
  · split
    · rename_i p hl
      refine if_neg fun hc => ?_
      rw [Bool.and_eq_true] at hc
      exact hC ⟨p, (ScanWork.sharedBelow_iff_standsAbove ⟨hc.1, hl⟩).1 hc.2⟩
    · rfl

/-- R170, pass 4: the tools in the spindle above a lower one. -/
theorem scanSpindle_pass (P : Nat) (v : ScanWork) : ∃ X, X.Pairwise (· < ·) ∧
    (∀ k, k ∈ X ↔ v.StandsAbove k .spindle) ∧ v.Relocates P X (slots.foldl (scanSpindle P) v) := by
  refine pass_relocates (fun k hk => hk.1.doubtful rfl) fun w k passed => ?_
  have above : w.StandsAbove k .spindle ↔ v.StandsAbove k .spindle := passed.standsAbove_iff rfl fun j hj _ => hj
  rw [← above]
  unfold scanSpindle
  refine ⟨fun hk => ?_, fun hC => ?_⟩
  · simp only [hk.1.2]
    exact if_pos (by rw [hk.1.1, (ScanWork.sharedBelow_iff_standsAbove hk.1).2 hk]; rfl)
  · split
    · rename_i hl
      refine if_neg fun hc => ?_
      rw [Bool.and_eq_true] at hc
      exact hC ((ScanWork.sharedBelow_iff_standsAbove ⟨hc.1, hl⟩).1 hc.2)
    · rfl

end

/-! ### The fifth pass -/

/-- R170, pass 5: the examination of `k`, where the tools stand in the pockets that `stands` says, repairs `i`. -/
def LargeTurn (P : Nat) (large : Slot → Prop) (stands : Slot → Nat → Prop) (k i : Slot) : Prop :=
  large k ∧ ∃ p, stands k p ∧
    ((k < i ∧ (stands i (ringBefore P p) ∨
        (stands i (ringAfter P p) ∧ ∀ j, j < k → ¬ stands j (ringBefore P p)))) ∨
      (i = k ∧ ∃ j, j < k ∧ (stands j (ringBefore P p) ∨ stands j (ringAfter P p))))

/-- R170, pass 5: the examination of the neighbour pocket `q` of the slot `k` in pocket `p` repairs `i`. -/
def ScanWork.NeighbourTurn (w : ScanWork) (k : Slot) (p q : Nat) (i : Slot) : Prop :=
  w.Stands k (.pocket p) ∧
    ((k < i ∧ w.Stands i (.pocket q)) ∨ (i = k ∧ ∃ j, j < k ∧ w.Stands j (.pocket q)))

section
variable {P p q : Nat} {w w' : ScanWork} {k i : Slot}

theorem ScanWork.NeighbourTurn.doubtful (h : w.NeighbourTurn k p q i) : w.Doubtful P i := by
  rcases h with ⟨hk, ⟨-, hi⟩ | ⟨rfl, -⟩⟩
  · exact hi.doubtful rfl
  · exact hk.doubtful rfl

/-- The repair of `n` is all that a turn does, if it repairs `n` alone. -/
theorem ScanWork.relocates_of_turn {n : Slot} {T : Slot → Prop} (turn : ∀ i, T i ↔ i = n) (hn : w.Doubtful P n) :
    ∃ X, (∀ i, i ∈ X ↔ T i) ∧ w.Relocates P X (w.repairLocation P n) :=
  ⟨[n], fun i => by rw [List.mem_singleton, turn], .single hn⟩

/-- Nothing is done, if a turn repairs no slot. -/
theorem ScanWork.relocates_of_no_turn (P : Nat) (w : ScanWork) {T : Slot → Prop} (turn : ∀ i, ¬ T i) :
    ∃ X, (∀ i, i ∈ X ↔ T i) ∧ w.Relocates P X w :=
  ⟨[], fun i => iff_of_false List.not_mem_nil (turn i), .refl P w⟩

/-- R170, pass 5: the examination of one neighbour pocket. -/
theorem scanNeighbour_relocates (alone : ∀ k, w.AloneInPocket k) (tool : (w.record k).occupied = true) :
    ∃ X, (∀ i, i ∈ X ↔ w.NeighbourTurn k p q i) ∧ w.Relocates P X (scanNeighbour P k p w q) := by
  obtain ⟨no_holder, holder⟩ := w.holderOf_spec k q
  unfold scanNeighbour
  by_cases hl : (w.record k).location = .pocket p
  · have hk : w.Stands k (.pocket p) := ⟨tool, hl⟩
    rw [if_pos hl]
    cases hh : w.holderOf k q with
    | none =>
      have empty (j) (hj : j ≠ k) : ¬ w.Stands j (.pocket q) := fun h => no_holder.1 hh j hj h.1 h.2
      refine w.relocates_of_no_turn P fun i turn => ?_
      rcases turn.2 with ⟨lt, hi⟩ | ⟨-, j, lt, hj⟩
      · exact empty i (ne_of_gt lt) hi
      · exact empty j (ne_of_lt lt) hj
    | some n =>
      obtain ⟨other, hn⟩ := holder n hh
      have only {j} (hj : w.Stands j (.pocket q)) : j = n := ScanWork.one_in_pocket alone hj.1 hn.1 hj.2 hn.2
      dsimp only
      by_cases lt : k < n
      · rw [if_pos lt]
        have turn (i) : w.NeighbourTurn k p q i ↔ i = n := by
          refine ⟨fun h => ?_, fun e => ⟨hk, .inl ⟨e ▸ lt, e ▸ hn⟩⟩⟩
          rcases h.2 with ⟨-, hi⟩ | ⟨-, j, hlt, hj⟩
          · exact only hi
          · exact absurd (only hj ▸ hlt) (not_lt_of_gt lt)
        exact w.relocates_of_turn turn ((turn n).2 rfl).doubtful
      · have gt : n < k := lt_of_le_of_ne (not_lt.1 lt) other
        rw [if_neg lt]
        have turn (i) : w.NeighbourTurn k p q i ↔ i = k := by
          refine ⟨fun h => ?_, fun e => ⟨hk, .inr ⟨e, n, gt, hn⟩⟩⟩
          rcases h.2 with ⟨hlt, hi⟩ | ⟨e, -⟩
          · exact absurd (only hi ▸ hlt) lt
          · exact e
        exact w.relocates_of_turn turn ((turn k).2 rfl).doubtful
  · rw [if_neg hl]
    exact w.relocates_of_no_turn P fun i turn => hl turn.1.2

/-- R170, pass 5: the turn of a LARGE tool in pocket `p`; `lower` says that a lower tool stands in the neighbour
before. -/
theorem largeTurn_iff {large : Slot → Prop} (hl : large k) (hp : w.Stands k (.pocket p)) {lower : Prop}
    (hlower : lower ↔ ∃ j, j < k ∧ w.Stands j (.pocket (ringBefore P p))) (i : Slot) :
    LargeTurn P large (fun j q => w.Stands j (.pocket q)) k i ↔
      (k < i ∧ (w.Stands i (.pocket (ringBefore P p)) ∨ (w.Stands i (.pocket (ringAfter P p)) ∧ ¬ lower))) ∨
        (i = k ∧ (lower ∨ ∃ j, j < k ∧ w.Stands j (.pocket (ringAfter P p)))) := by
  have pocket (r) : w.Stands k (.pocket r) ↔ r = p := ⟨fun hr => by cases hr.unique hp; rfl, fun e => e ▸ hp⟩
  simp only [LargeTurn, hl, true_and, pocket, exists_eq_left, hlower, not_exists, not_and, and_or_left, exists_or]

/-- R170, pass 5: the two examinations of one turn together. -/
theorem largeTurn_iff_neighbourTurns {large : Slot → Prop} (hl : large k) (hp : w.Stands k (.pocket p)) {X : List Slot}
    (hX : ∀ i, i ∈ X ↔ w.NeighbourTurn k p (ringBefore P p) i) (h : w.Relocates P X w') (i : Slot) :
    LargeTurn P large (fun j q => w.Stands j (.pocket q)) k i ↔
      i ∈ X ∨ w'.NeighbourTurn k p (ringAfter P p) i := by
  have stays (j q) : w'.Stands j (.pocket q) ↔ w.Stands j (.pocket q) ∧ j ∉ X := h.doubts.stands_iff rfl
  have hits (j) : j ∈ X ↔ (k < j ∧ w.Stands j (.pocket (ringBefore P p))) ∨
      (j = k ∧ ∃ m, m < k ∧ w.Stands m (.pocket (ringBefore P p))) := (hX j).trans (and_iff_right hp)
  have ends : k ∈ X ↔ ∃ m, m < k ∧ w.Stands m (.pocket (ringBefore P p)) := by simp [hits k]
  have below {j} (lt : j < k) : j ∉ X := fun hj => by
    rcases (hits j).1 hj with ⟨gt, -⟩ | ⟨e, -⟩
    · exact lt_asymm lt gt
    · exact ne_of_lt lt e
  have later : (∃ j, j < k ∧ w'.Stands j (.pocket (ringAfter P p))) ↔
      ∃ j, j < k ∧ w.Stands j (.pocket (ringAfter P p)) :=
    exists_congr fun j => and_congr_right fun lt => (stays j _).trans (and_iff_left (below lt))
  rw [largeTurn_iff hl hp ends, ScanWork.NeighbourTurn, later, stays k, stays i, and_iff_right hp]
  have hit := hits i
  rw [← ends] at hit
  generalize (∃ j, j < k ∧ w.Stands j (.pocket (ringAfter P p))) = lowerAfter
  tauto

/-- R170, pass 5: one turn. -/
theorem scanLarge_relocates (alone : ∀ k, w.AloneInPocket k) (k : Slot) : ∃ X,
    (∀ i, i ∈ X ↔
      LargeTurn P (fun j => (w.record j).size = .large) (fun j q => w.Stands j (.pocket q)) k i) ∧
      w.Relocates P X (scanLarge P w k) := by
  unfold scanLarge
  split
  · rename_i p hl
    split
    · rename_i hc
      rw [Bool.and_eq_true, beq_iff_eq] at hc
      obtain ⟨tool, large⟩ := hc
      obtain ⟨X, hX, first⟩ := scanNeighbour_relocates (P := P) (p := p) (q := ringBefore P p) alone tool
      have alone' (j) := (scanNeighbour_step P k p w (ringBefore P p) tool).aloneInPocket (alone j)
      obtain ⟨Y, hY, second⟩ := scanNeighbour_relocates (P := P) (p := p) (q := ringAfter P p) alone'
        ((first.doubts.occupied k).trans tool)
      refine ⟨X ++ Y, fun i => ?_, first.trans second⟩
      rw [List.mem_append, hY, largeTurn_iff_neighbourTurns large ⟨tool, hl⟩ hX first]
    · rename_i hc
      refine w.relocates_of_no_turn P fun i turn => hc ?_
      obtain ⟨large, _, hp, -⟩ := turn
      rw [Bool.and_eq_true, beq_iff_eq]
      exact ⟨hp.1, large⟩
  · rename_i no_pocket
    exact w.relocates_of_no_turn P fun i ⟨_, p, hp, _⟩ => no_pocket p hp.2

end

/-! ### The turns of the fifth pass in their order -/

section
variable {P : Nat} {large : Slot → Prop} {holds : Slot → Nat → Prop} {R : Nat → Slot → Prop}

/-- The repairs `R n` before turn `n` come about turn by turn. -/
def LargeTurns (P : Nat) (large : Slot → Prop) (holds : Slot → Nat → Prop) (R : Nat → Slot → Prop) : Prop :=
  (∀ i, ¬ R 0 i) ∧
    ∀ k i : Slot, R (k + 1) i ↔ R k i ∨ LargeTurn P large (fun j q => holds j q ∧ ¬ R k j) k i

theorem LargeTurn.le {stands : Slot → Nat → Prop} {k i : Slot} (h : LargeTurn P large stands k i) : k ≤ i := by
  obtain ⟨-, -, -, ⟨lt, -⟩ | ⟨rfl, -⟩⟩ := h
  · exact le_of_lt lt
  · exact le_refl _

/-- A turn repairs slots that stand in a pocket alone. -/
theorem LargeTurn.stands {stands : Slot → Nat → Prop} {k i : Slot} (h : LargeTurn P large stands k i) :
    ∃ q, stands i q := by
  obtain ⟨-, p, hk, ⟨-, hb | ⟨ha, -⟩⟩ | ⟨rfl, -⟩⟩ := h
  · exact ⟨_, hb⟩
  · exact ⟨_, ha⟩
  · exact ⟨p, hk⟩

/-- A slot is repaired before turn `n` in the turn of some slot below `n`. -/
theorem LargeTurns.iff_exists (h : LargeTurns P large holds R) (i : Slot) : ∀ n, n ≤ 128 →
    (R n i ↔ ∃ k : Slot, k.val < n ∧ LargeTurn P large (fun j q => holds j q ∧ ¬ R k j) k i) := by
  intro n
  induction n with
  | zero => exact fun _ => iff_of_false (h.1 i) (by simp)
  | succ n ih =>
    intro hn
    have turn := h.2 ⟨n, hn⟩ i
    rw [show ((⟨n, hn⟩ : Slot) : Nat) = n from rfl] at turn
    rw [turn, ih (by omega)]
    constructor
    · rintro (⟨k, lt, hk⟩ | hn')
      · exact ⟨k, by omega, hk⟩
      · exact ⟨⟨n, hn⟩, by simp, hn'⟩
    · rintro ⟨k, lt, hk⟩
      rcases Nat.lt_succ_iff_lt_or_eq.1 lt with lt | e
      · exact .inl ⟨k, lt, hk⟩
      · obtain rfl : k = ⟨n, hn⟩ := Fin.ext e
        exact .inr hk

/-- What a turn repairs is settled when the turn of the slot is over. -/
theorem LargeTurns.settled (h : LargeTurns P large holds R) {i : Slot} {n : Nat} (lt : i.val < n) (hn : n ≤ 128) :
    R n i ↔ R 128 i := by
  rw [h.iff_exists i n hn, h.iff_exists i 128 (le_refl _)]
  exact exists_congr fun k => and_congr_left fun hk =>
    iff_of_true (lt_of_le_of_lt (Fin.le_def.1 hk.le) lt) k.isLt

/-- A lower slot that still holds a pocket at the turn of `k` holds it after the pass. -/
theorem LargeTurns.still_iff (h : LargeTurns P large holds R) {j k : Slot} {q : Nat} (lt : j < k) :
    (holds j q ∧ ¬ R k j) ↔ (holds j q ∧ ¬ R 128 j) :=
  and_congr_right fun _ => not_congr (h.settled lt k.isLt.le)

/-- R170, pass 5: the slots that still hold their pocket at their turn. -/
def Examined (large : Slot → Prop) (holds : Slot → Nat → Prop) (R : Nat → Slot → Prop) (k : Slot) : Prop :=
  large k ∧ (∃ p, holds k p) ∧ ¬ R k k

/-- R170, pass 5: the examination of `L` would repair the higher slot `k`, had it not been repaired before. -/
def RepairsAbove (P : Nat) (large : Slot → Prop) (holds : Slot → Nat → Prop) (R : Nat → Slot → Prop) (L k : Slot) :
    Prop :=
  Examined large holds R L ∧ L < k ∧ ∃ p, holds L p ∧
    (holds k (neighbourBefore P p) ∨
      (holds k (neighbourAfter P p) ∧ ∀ j, j < L → ¬ (holds j (neighbourBefore P p) ∧ ¬ R 128 j)))

/-- R170, pass 5: the examination of `k` repairs `k` itself, for a lower tool that still stands beside it. -/
def RepairsItself (P : Nat) (large : Slot → Prop) (holds : Slot → Nat → Prop) (R : Nat → Slot → Prop) (k : Slot) :
    Prop :=
  Examined large holds R k ∧ ∃ p j, holds k p ∧ j < k ∧
    ((holds j (neighbourBefore P p) ∧ ¬ R 128 j) ∨ (holds j (neighbourAfter P p) ∧ ¬ R 128 j))

section
variable (h : LargeTurns P large holds R) (ring : ∀ k p, holds k p → 1 ≤ p ∧ p ≤ P) {k i : Slot}
include h ring

/-- A turn repairs what the examination says of the higher slots, unless an earlier turn did. -/
theorem LargeTurns.turn_above_iff (lt : k < i) :
    LargeTurn P large (fun j q => holds j q ∧ ¬ R k j) k i ↔ RepairsAbove P large holds R k i ∧ ¬ R k i := by
  have other : i ≠ k := ne_of_gt lt
  constructor
  · rintro ⟨hl, p, ⟨hp, hk⟩, ⟨-, hit⟩ | ⟨e, -⟩⟩
    · obtain ⟨before, after⟩ := ring_neighbours P p (ring k p hp).1 (ring k p hp).2
      rw [before, after] at hit
      rcases hit with ⟨hb, hi⟩ | ⟨⟨ha, hi⟩, free⟩
      · exact ⟨⟨⟨hl, ⟨p, hp⟩, hk⟩, lt, p, hp, .inl hb⟩, hi⟩
      · exact ⟨⟨⟨hl, ⟨p, hp⟩, hk⟩, lt, p, hp,
          .inr ⟨ha, fun j below => mt (h.still_iff below).2 (free j below)⟩⟩, hi⟩
    · exact absurd e other
  · rintro ⟨⟨⟨hl, -, hk⟩, -, p, hp, hit⟩, hi⟩
    obtain ⟨before, after⟩ := ring_neighbours P p (ring k p hp).1 (ring k p hp).2
    refine ⟨hl, p, ⟨hp, hk⟩, .inl ⟨lt, ?_⟩⟩
    rw [before, after]
    exact hit.imp (fun hb => ⟨hb, hi⟩) fun ⟨ha, free⟩ =>
      ⟨⟨ha, hi⟩, fun j below => mt (h.still_iff below).1 (free j below)⟩

/-- A turn repairs its own slot where the examination says so. -/
theorem LargeTurns.turn_itself_iff :
    LargeTurn P large (fun j q => holds j q ∧ ¬ R k j) k k ↔ RepairsItself P large holds R k := by
  constructor
  · rintro ⟨hl, p, ⟨hp, hk⟩, ⟨lt, -⟩ | ⟨-, j, lt, hit⟩⟩
    · exact absurd lt (lt_irrefl k)
    · obtain ⟨before, after⟩ := ring_neighbours P p (ring k p hp).1 (ring k p hp).2
      rw [before, after] at hit
      exact ⟨⟨hl, ⟨p, hp⟩, hk⟩, p, j, hp, lt, hit.imp (h.still_iff lt).1 (h.still_iff lt).1⟩
  · rintro ⟨⟨hl, -, hk⟩, p, j, hp, lt, hit⟩
    obtain ⟨before, after⟩ := ring_neighbours P p (ring k p hp).1 (ring k p hp).2
    refine ⟨hl, p, ⟨hp, hk⟩, .inr ⟨rfl, j, lt, ?_⟩⟩
    rw [before, after]
    exact hit.imp (h.still_iff lt).2 (h.still_iff lt).2

/-- Before its own turn a slot is repaired exactly when a lower examination repairs it. -/
theorem LargeTurns.before_turn_iff : R k k ↔ ∃ L, RepairsAbove P large holds R L k := by
  rw [h.iff_exists k k k.isLt.le]
  constructor
  · rintro ⟨L, lt, turn⟩
    exact ⟨L, ((h.turn_above_iff ring lt).1 turn).1⟩
  · rintro ⟨L, hL⟩
    have ⟨_, above, _⟩ := hL
    by_cases earlier : R L k
    · obtain ⟨M, lt, turn⟩ := (h.iff_exists k L L.isLt.le).1 earlier
      exact ⟨M, lt_trans lt above, turn⟩
    · exact ⟨L, above, (h.turn_above_iff ring above).2 ⟨hL, earlier⟩⟩

/-- R170, pass 5: repairs that come about turn by turn are those of the pass. -/
theorem LargeTurns.largePass : LargePass P large holds (R 128) := by
  refine ⟨Examined large holds R, fun k => ?_, fun k => ?_⟩
  · exact and_congr_right fun _ => and_congr_right fun _ => (not_congr (h.before_turn_iff ring)).trans not_exists
  · rw [← h.settled (Nat.lt_succ_self k.val) k.isLt, h.2 k k]
    exact or_congr (h.before_turn_iff ring) (h.turn_itself_iff ring)

end

end

/-! ### The fifth pass as a whole -/

/-- The scan's work before turn `n` of the fifth pass. -/
def largeWork (P : Nat) (w : ScanWork) (n : Nat) : ScanWork := (slots.take n).foldl (scanLarge P) w

/-- The tool has left its pocket before turn `n` of the fifth pass. -/
def LeftBefore (P : Nat) (w : ScanWork) (n : Nat) (i : Slot) : Prop :=
  ∃ p, w.Stands i (.pocket p) ∧ ¬ (largeWork P w n).Stands i (.pocket p)

section
variable {P : Nat} {w : ScanWork}

theorem largeWork_succ (P : Nat) (w : ScanWork) (k : Slot) :
    largeWork P w (k + 1) = scanLarge P (largeWork P w k) k := by
  have next : slots.take (k + 1) = slots.take k ++ [k] := by
    rw [List.take_add_one]; simp [slots]
  rw [largeWork, next, List.foldl_append]; rfl

theorem largeWork_all (P : Nat) (w : ScanWork) : largeWork P w 128 = slots.foldl (scanLarge P) w := by
  rw [largeWork, List.take_of_length_le (by simp [slots])]

theorem largeWork_step (P : Nat) (w : ScanWork) (n : Nat) : ScanStep P w (largeWork P w n) :=
  ScanStep.foldl _ (scanLarge_step P) _ _

/-- A tool still stands in its pocket unless it has left it. -/
theorem largeWork_stands_iff {n : Nat} {i : Slot} {p : Nat} :
    (largeWork P w n).Stands i (.pocket p) ↔ w.Stands i (.pocket p) ∧ ¬ LeftBefore P w n i := by
  constructor
  · intro h
    have stood : w.Stands i (.pocket p) :=
      ⟨(largeWork_step P w n).occupied i ▸ h.1, (largeWork_step P w n).location_of rfl h.2⟩
    exact ⟨stood, fun ⟨q, hq, left⟩ => by cases hq.unique stood; exact left h⟩
  · rintro ⟨h, stays⟩
    by_contra left
    exact stays ⟨p, h, left⟩

section
variable (alone : ∀ k, w.AloneInPocket k)
include alone

/-- R170, pass 5: what turn `k` does. -/
theorem largeWork_relocates (k : Slot) : ∃ X, (∀ i, i ∈ X ↔ LargeTurn P (fun j => (w.record j).size = .large)
      (fun j q => w.Stands j (.pocket q) ∧ ¬ LeftBefore P w k j) k i) ∧
    (largeWork P w k).Relocates P X (largeWork P w (k + 1)) := by
  obtain ⟨X, hX, turn⟩ := scanLarge_relocates (P := P) (fun i => (largeWork_step P w k).aloneInPocket (alone i)) k
  have size (j) : ((largeWork P w k).record j).size = (w.record j).size := (largeWork_step P w k j).size
  simp only [size, largeWork_stands_iff] at hX
  exact ⟨X, hX, largeWork_succ P w k ▸ turn⟩

/-- R170, pass 5: the tools leave their pockets turn by turn. -/
theorem largeTurns_leftBefore : LargeTurns P (fun j => (w.record j).size = .large)
    (fun j q => w.Stands j (.pocket q)) (LeftBefore P w) := by
  refine ⟨fun i ⟨p, stands, left⟩ => left stands, fun k i => ?_⟩
  obtain ⟨X, hX, turn⟩ := largeWork_relocates (P := P) alone k
  have next {p} : (largeWork P w (k + 1)).Stands i (.pocket p) ↔
      (largeWork P w k).Stands i (.pocket p) ∧ i ∉ X := turn.doubts.stands_iff rfl
  rw [← hX]
  constructor
  · rintro ⟨p, stood, left⟩
    rw [next, largeWork_stands_iff] at left
    by_contra h
    exact left ⟨⟨stood, fun before => h (.inl before)⟩, fun hi => h (.inr hi)⟩
  · rintro (⟨p, stood, left⟩ | hi)
    · exact ⟨p, stood, fun h => left (next.1 h).1⟩
    · obtain ⟨q, stood, -⟩ := ((hX i).1 hi).stands
      exact ⟨q, stood, fun h => (next.1 h).2 hi⟩

/-- R170, pass 5: the handings of the first `n` turns. -/
theorem exists_largeWork_relocates : ∀ n, n ≤ 128 →
    ∃ X, (∀ i ∈ X, ∃ p, w.Stands i (.pocket p)) ∧ w.Relocates P X (largeWork P w n) := by
  intro n
  induction n with
  | zero => exact fun _ => ⟨[], by simp, .refl P w⟩
  | succ n ih =>
    intro hn
    obtain ⟨X, hX, before⟩ := ih (by omega)
    obtain ⟨Y, hY, turn⟩ := largeWork_relocates (P := P) alone ⟨n, hn⟩
    refine ⟨X ++ Y, fun i hi => (List.mem_append.1 hi).elim (hX i) fun hi => ?_, before.trans turn⟩
    exact ((hY i).1 hi).stands.imp fun _ h => h.1

/-- R170, pass 5: the slots that the pass repairs. -/
theorem scanLarge_pass_relocates (P : Nat) : ∃ X, (∀ i ∈ X, ∃ p, w.Stands i (.pocket p)) ∧
    w.Relocates P X (slots.foldl (scanLarge P) w) ∧
    ((∀ k p, w.Stands k (.pocket p) → 1 ≤ p ∧ p ≤ P) →
      LargePass P (fun k => (w.record k).size = .large) (fun k p => w.Stands k (.pocket p)) (· ∈ X)) := by
  obtain ⟨X, hX, pass⟩ := exists_largeWork_relocates (P := P) alone 128 (le_refl _)
  have left : (· ∈ X) = LeftBefore P w 128 := by
    funext i
    have stays {p} : (largeWork P w 128).Stands i (.pocket p) ↔ w.Stands i (.pocket p) ∧ i ∉ X :=
      pass.doubts.stands_iff rfl
    refine propext ⟨fun hi => (hX i hi).imp fun p hp => ⟨hp, fun h => (stays.1 h).2 hi⟩, fun ⟨p, hp, left⟩ => ?_⟩
    by_contra hi
    exact left (stays.2 ⟨hp, hi⟩)
  exact ⟨X, hX, largeWork_all P w ▸ pass, fun ring => left ▸ (largeTurns_leftBefore alone).largePass ring⟩

end

end

/-! ### The location passes together -/

/-- R170, pass 5: the lowest tool in a pocket of the ring, which the first four passes leave in it. -/
def ScanWork.Keeps (P : Nat) (v : ScanWork) (k : Slot) (p : Nat) : Prop :=
  p ≤ P ∧ v.Stands k (.pocket p) ∧ ∀ j, j < k → ¬ v.Stands j (.pocket p)

/-- R170: the slots that the five passes repair, in the order of the repairs, in the words of the table as loaded. -/
structure LocationPasses (P : Nat) (v : ScanWork) (transit beyond shared spindle large : List Slot) : Prop where
  sorted : ∀ l ∈ [transit, beyond, shared, spindle], l.Pairwise (· < ·)
  transit_iff : ∀ k, k ∈ transit ↔ ∃ p, v.Stands k (.transitIn p) ∨ v.Stands k (.transitBack p)
  beyond_iff : ∀ k, k ∈ beyond ↔ ∃ p, P < p ∧ (v.Stands k (.pocket p) ∨ v.Stands k (.unknown (some p)))
  shared_iff : ∀ k, k ∈ shared ↔ ∃ p, p ≤ P ∧ v.StandsAbove k (.pocket p)
  spindle_iff : ∀ k, k ∈ spindle ↔ v.StandsAbove k .spindle
  large_keeps : ∀ k ∈ large, ∃ p, v.Keeps P k p
  large_pass : (∀ k p, v.Keeps P k p → 1 ≤ p) →
    LargePass P (fun k => (v.record k).size = .large) (v.Keeps P) (· ∈ large)

section
variable {P p : Nat} {v w w₁ w₂ w₃ w₄ : ScanWork} {X transit beyond shared spindle large : List Slot} {k : Slot}
  {l : Location}

/-- R170, pass 2: a repair leaves no tool UNKNOWN at a pocket beyond the ring. -/
theorem ScanWork.Relocates.stands_beyond_iff (h : v.Relocates P X w) (hp : P < p) :
    w.Stands k (.unknown (some p)) ↔ v.Stands k (.unknown (some p)) ∧ k ∉ X := by
  by_cases hk : k ∈ X
  · refine iff_of_false (fun e => ?_) fun e => e.2 hk
    have kept := (h.doubts.location_of hk).symm.trans e.2
    exact absurd (keptPocket_le P _ p (Location.unknown.inj kept)) (Nat.not_le.2 hp)
  · rw [ScanWork.Stands, h.doubts.record_of_not hk]
    exact (and_iff_left hk).symm

section
variable (transit_iff : ∀ k, k ∈ transit ↔ ∃ p, v.Stands k (.transitIn p) ∨ v.Stands k (.transitBack p))
  (pass₁ : v.Relocates P transit w₁)
  (beyond_iff : ∀ k, k ∈ beyond ↔ ∃ p, P < p ∧ (w₁.Stands k (.pocket p) ∨ w₁.Stands k (.unknown (some p))))
  (pass₂ : w₁.Relocates P beyond w₂)
include transit_iff

/-- The first pass repairs no tool that stands elsewhere than in transit. -/
theorem not_mem_transit (h : v.Stands k l) (rests : ∀ p, l ≠ .transitIn p ∧ l ≠ .transitBack p) : k ∉ transit := by
  intro hk
  obtain ⟨p, e | e⟩ := (transit_iff k).1 hk
  · exact (rests p).1 (h.unique e)
  · exact (rests p).2 (h.unique e)

include pass₁ beyond_iff

/-- The second pass, in the words of the table as loaded. -/
theorem mem_beyond_iff (k : Slot) :
    k ∈ beyond ↔ ∃ p, P < p ∧ (v.Stands k (.pocket p) ∨ v.Stands k (.unknown (some p))) := by
  refine (beyond_iff k).trans (exists_congr fun p => and_congr_right fun hp => or_congr ?_ ?_)
  · exact (pass₁.doubts.stands_iff rfl).trans (and_iff_left_of_imp fun h => not_mem_transit transit_iff h (by simp))
  · exact (pass₁.stands_beyond_iff hp).trans (and_iff_left_of_imp fun h => not_mem_transit transit_iff h (by simp))

include pass₂

/-- After two passes the tools stand in the pockets of the ring. -/
theorem stands_pocket_after_beyond : w₂.Stands k (.pocket p) ↔ p ≤ P ∧ v.Stands k (.pocket p) := by
  have beyond_iff' := mem_beyond_iff transit_iff pass₁ beyond_iff k
  rw [pass₂.doubts.stands_iff rfl, pass₁.doubts.stands_iff rfl, and_assoc, and_comm]
  refine and_congr_left fun h => ⟨fun ⟨_, hk⟩ => ?_, fun hp => ⟨not_mem_transit transit_iff h (by simp), fun hk => ?_⟩⟩
  · exact not_lt.1 fun hp => hk (beyond_iff'.2 ⟨p, hp, .inl h⟩)
  · obtain ⟨q, hq, e | e⟩ := beyond_iff'.1 hk <;> cases h.unique e
    exact absurd hp (Nat.not_le.2 hq)

/-- The first two passes leave the tools in the spindle. -/
theorem stands_spindle_after_beyond : w₂.Stands k .spindle ↔ v.Stands k .spindle := by
  rw [pass₂.doubts.stands_iff rfl, pass₁.doubts.stands_iff rfl, and_assoc]
  refine and_iff_left_of_imp fun h => ⟨not_mem_transit transit_iff h (by simp), fun hk => ?_⟩
  obtain ⟨q, -, e | e⟩ := (mem_beyond_iff transit_iff pass₁ beyond_iff k).1 hk <;> cases h.unique e

end

section
variable (pocket₂ : ∀ {k p}, w₂.Stands k (.pocket p) ↔ p ≤ P ∧ v.Stands k (.pocket p))
  (spindle₂ : ∀ {k}, w₂.Stands k .spindle ↔ v.Stands k .spindle)
  (shared_iff : ∀ k, k ∈ shared ↔ ∃ p, w₂.StandsAbove k (.pocket p)) (pass₃ : w₂.Relocates P shared w₃)
  (spindle_iff : ∀ k, k ∈ spindle ↔ w₃.StandsAbove k .spindle) (pass₄ : w₃.Relocates P spindle w₄)
include pocket₂ shared_iff

/-- The third pass, in the words of the table as loaded. -/
theorem mem_shared_iff (k : Slot) : k ∈ shared ↔ ∃ p, p ≤ P ∧ v.StandsAbove k (.pocket p) := by
  rw [shared_iff]
  refine exists_congr fun p => ⟨fun ⟨hk, j, lt, hj⟩ => ?_, fun ⟨hp, hk, j, lt, hj⟩ => ?_⟩
  · obtain ⟨hp, hk⟩ := pocket₂.1 hk
    exact ⟨hp, hk, j, lt, (pocket₂.1 hj).2⟩
  · exact ⟨pocket₂.2 ⟨hp, hk⟩, j, lt, pocket₂.2 ⟨hp, hj⟩⟩

include spindle₂ pass₃ spindle_iff

/-- The fourth pass, in the words of the table as loaded. -/
theorem mem_spindle_iff (k : Slot) : k ∈ spindle ↔ v.StandsAbove k .spindle := by
  have spindle₃ {k} : w₃.Stands k .spindle ↔ v.Stands k .spindle := by
    rw [pass₃.doubts.stands_iff rfl, spindle₂]
    refine and_iff_left_of_imp fun h hk => ?_
    obtain ⟨q, -, e, -⟩ := (mem_shared_iff pocket₂ shared_iff k).1 hk
    cases h.unique e
  simp only [spindle_iff, ScanWork.StandsAbove, spindle₃]

include pass₄

/-- After four passes the lowest tools stand in the pockets of the ring. -/
theorem stands_pocket_after_spindle (k : Slot) (p : Nat) : w₄.Stands k (.pocket p) ↔ v.Keeps P k p := by
  have shared_iff' := mem_shared_iff pocket₂ shared_iff k
  have spindle_iff' := mem_spindle_iff pocket₂ spindle₂ shared_iff pass₃ spindle_iff k
  rw [pass₄.doubts.stands_iff rfl, pass₃.doubts.stands_iff rfl, pocket₂, and_assoc, and_assoc]
  refine and_congr_right fun hp => and_congr_right fun h => ⟨fun ⟨alone, _⟩ j lt hj => ?_, fun alone => ⟨?_, ?_⟩⟩
  · exact alone (shared_iff'.2 ⟨p, hp, h, j, lt, hj⟩)
  · intro hk
    obtain ⟨q, -, e, j, lt, hj⟩ := shared_iff'.1 hk
    cases h.unique e
    exact alone j lt hj
  · intro hk
    cases h.unique (spindle_iff'.1 hk).1

end

/-- The scan's work after its five location passes (R170). -/
def locatedWork (P : Nat) (v : ScanWork) : ScanWork :=
  slots.foldl (scanLarge P) (slots.foldl (scanSpindle P) (slots.foldl (scanShared P)
    (slots.foldl (scanBeyond P) (slots.foldl (scanTransit P) v))))

/-- R170: the five location passes of the scan. -/
theorem exists_locationPasses (P : Nat) (v : ScanWork) : ∃ transit beyond shared spindle large,
    LocationPasses P v transit beyond shared spindle large ∧
      v.Relocates P (transit ++ beyond ++ shared ++ spindle ++ large) (locatedWork P v) := by
  obtain ⟨transit, sorted₁, transit_iff, pass₁⟩ := scanTransit_pass P v
  obtain ⟨beyond, sorted₂, beyond_iff, pass₂⟩ := scanBeyond_pass P (slots.foldl (scanTransit P) v)
  obtain ⟨shared, sorted₃, shared_iff, pass₃⟩ := scanShared_pass P (slots.foldl (scanBeyond P)
    (slots.foldl (scanTransit P) v))
  obtain ⟨spindle, sorted₄, spindle_iff, pass₄⟩ := scanSpindle_pass P (slots.foldl (scanShared P)
    (slots.foldl (scanBeyond P) (slots.foldl (scanTransit P) v)))
  have alone (k) := (ScanStep.foldl _ (scanSpindle_step P) slots _).aloneInPocket
    (scanPass_establishes (E := ScanWork.AloneInPocket) (scanShared_step P) ScanStep.aloneInPocket
      (scanShared_alone P) (slots.foldl (scanBeyond P) (slots.foldl (scanTransit P) v)) k)
  obtain ⟨large, large_stands, pass₅, large_pass⟩ := scanLarge_pass_relocates alone P
  have pocket₂ {k p} := stands_pocket_after_beyond (k := k) (p := p) transit_iff pass₁ beyond_iff pass₂
  have spindle₂ {k} := stands_spindle_after_beyond (k := k) transit_iff pass₁ beyond_iff pass₂
  have four := ((pass₁.trans pass₂).trans pass₃).trans pass₄
  simp only [stands_pocket_after_spindle pocket₂ spindle₂ shared_iff pass₃ spindle_iff pass₄] at large_stands large_pass
  simp only [four.doubts.size] at large_pass
  exact ⟨transit, beyond, shared, spindle, large,
    { sorted := by simp [sorted₁, sorted₂, sorted₃, sorted₄]
      transit_iff
      beyond_iff := mem_beyond_iff transit_iff pass₁ beyond_iff
      shared_iff := mem_shared_iff pocket₂ shared_iff
      spindle_iff := mem_spindle_iff pocket₂ spindle₂ shared_iff pass₃ spindle_iff
      large_keeps := large_stands
      large_pass := fun numbered => large_pass fun k p hk => ⟨numbered k p hk, hk.1⟩ },
    four.trans pass₅⟩

end

/-! ### The field repairs and the seeding, slot by slot -/

/-- R171, field repair 1, on one slot. -/
def SlotState.rehomed (P : Nat) (x : SlotState) : SlotState :=
  if x.fields.occupied && decide (P < x.fields.home) then
    { x with fields := { x.fields with home := 0 }, attn := true, dirty := true }
  else x

/-- R171, field repair 2, on one slot; `shared` says that a lower slot has its tool number and rank. -/
def SlotState.rankHeld (shared : Bool) (x : SlotState) : SlotState :=
  if x.fields.occupied && shared then
    { x with fields := { x.fields with hold := true }, attn := true, dirty := x.dirty || !x.fields.hold }
  else x

/-- R172, the attention seeding, on one slot. -/
def SlotState.seeded (x : SlotState) : SlotState :=
  if x.fields.occupied && (x.fields.condition.callsAttention || x.fields.location.isUnknown) then
    { x with attn := true }
  else x

section
variable {P : Nat} {w w' : ScanWork} {k : Slot}

theorem ScanWork.image_of_turn {g : Slot → SlotState → SlotState}
    (before : ∀ j : Slot, w'.image[j] = if j < k then g j (w.image[j]) else w.image[j]) :
    w'.image[k] = w.image[k] := by
  rw [before, if_neg (lt_irrefl k)]

/-- R171: the first field repair takes the tools with a home pocket beyond the ring. -/
theorem scanHome_pass (P : Nat) (w : ScanWork) :
    (∀ k : Slot, (slots.foldl (scanHome P) w).image[k] = (w.image[k]).rehomed P) ∧
    (slots.foldl (scanHome P) w).handings = w.handings ++
      (slots.filter fun k => (w.record k).occupied && decide (P < (w.record k).home)).map (·, .normal) := by
  refine scanPass _ (fun _ => SlotState.rehomed P) _ _ w fun w' k before => ?_
  have same := ScanWork.image_of_turn before
  unfold scanHome SlotState.rehomed ScanWork.record
  rw [same]
  split
  · rw [ScanWork.repair, same]
  · rw [← same]; simp

/-- The rank test reads the condition, the tool number and the rank of the slots alone. -/
theorem ScanWork.rankBelow_congr (h : ∀ j, (w'.record j).condition = (w.record j).condition ∧
    (w'.record j).tool = (w.record j).tool ∧ (w'.record j).rank = (w.record j).rank) (k : Slot) :
    w'.rankBelow k = w.rankBelow k := by
  simp only [ScanWork.rankBelow, Record.occupied, h]

theorem SlotState.rankHeld_tags (shared : Bool) (x : SlotState) :
    (x.rankHeld shared).fields.condition = x.fields.condition ∧ (x.rankHeld shared).fields.tool = x.fields.tool ∧
      (x.rankHeld shared).fields.rank = x.fields.rank := by
  unfold SlotState.rankHeld
  split <;> exact ⟨rfl, rfl, rfl⟩

theorem SlotState.rankHeld_of_held {shared : Bool} {x : SlotState} (h : (x.fields.occupied && shared) = true)
    (hold : x.fields.hold = true) : x.rankHeld shared = { x with attn := true } := by
  have same : { x.fields with hold := true } = x.fields := by rw [← hold]
  rw [SlotState.rankHeld, if_pos h, same, hold, Bool.not_true, Bool.or_false]

theorem SlotState.rankHeld_of_clear {shared : Bool} {x : SlotState} (h : (x.fields.occupied && shared) = true)
    (hold : x.fields.hold = false) :
    x.rankHeld shared = { x with fields := { x.fields with hold := true }, attn := true, dirty := true } := by
  rw [SlotState.rankHeld, if_pos h, hold, Bool.not_false, Bool.or_true]

/-- R171: the second field repair takes the tools with the tool number and rank of a lower one. -/
theorem scanDuplicate_pass (w : ScanWork) :
    (∀ k : Slot, (slots.foldl scanDuplicate w).image[k] = (w.image[k]).rankHeld (w.rankBelow k)) ∧
    (slots.foldl scanDuplicate w).handings = w.handings ++
      (slots.filter fun k => (w.record k).occupied && w.rankBelow k && !(w.record k).hold).map (·, .normal) := by
  refine scanPass _ (fun k => SlotState.rankHeld (w.rankBelow k)) _ _ w fun w' k before => ?_
  have same := ScanWork.image_of_turn before
  have below : w'.rankBelow k = w.rankBelow k := ScanWork.rankBelow_congr (fun j => by
    rw [ScanWork.record, ScanWork.record, before]
    split <;> [exact SlotState.rankHeld_tags _ _; exact ⟨rfl, rfl, rfl⟩]) k
  unfold scanDuplicate ScanWork.record
  rw [same, below]
  by_cases hc : ((w.image[k]).fields.occupied && w.rankBelow k) = true
  · rw [if_pos hc]
    cases hold : (w.image[k]).fields.hold with
    | true =>
      rw [if_pos rfl, ScanWork.mark, same, SlotState.rankHeld_of_held hc hold, Bool.not_true, Bool.and_false]
      exact congrArg _ (List.append_nil _).symm
    | false =>
      rw [if_neg Bool.false_ne_true, ScanWork.repair, same, SlotState.rankHeld_of_clear hc hold, hc]
      rfl
  · rw [if_neg hc, SlotState.rankHeld, if_neg hc, Bool.eq_false_iff.2 hc, ← same]
    simp

/-- R172: the seeding marks slots and hands none. -/
theorem scanSeed_pass (w : ScanWork) : (∀ k : Slot, (slots.foldl scanSeed w).image[k] = (w.image[k]).seeded) ∧
    (slots.foldl scanSeed w).handings = w.handings := by
  obtain ⟨slot, handings⟩ := scanPass scanSeed (fun _ => SlotState.seeded) (fun _ => false) .normal w
    fun w' k before => by
      have same := ScanWork.image_of_turn before
      unfold scanSeed SlotState.seeded ScanWork.record
      rw [same]
      split
      · rw [ScanWork.mark, same]; simp
      · rw [← same]; simp
  exact ⟨slot, by simpa using handings⟩

end

/-! ### One slot after the scan -/

/-- R170, R171: the record of a tool after the scan; `moved` says that a location pass repaired it, `shared` that a
lower slot has its tool number and rank. -/
def Record.scanned (P : Nat) (moved shared : Bool) (r : Record) : Record :=
  { r with
    location := if moved then .unknown (keptPocket P r.location.pocketPart) else r.location
    home := if P < r.home then 0 else r.home
    hold := r.hold || shared }

/-- R170–R172: a slot after the scan, by the passes in their order. -/
def SlotState.scanned (P : Nat) (moved shared : Bool) (x : SlotState) : SlotState :=
  (((if moved then x.doubted P else x).rehomed P).rankHeld shared).seeded

section
variable {P : Nat} {moved shared : Bool} {x : SlotState} {r : Record}

/-- R171: a vacant slot is left as it is. -/
theorem SlotState.scanned_of_vacant (h : x.fields.occupied = false) : x.scanned P false shared = x := by
  simp [SlotState.scanned, SlotState.rehomed, SlotState.rankHeld, SlotState.seeded, h]

theorem SlotState.rehomed_of_tool (h : x.fields.occupied = true) : x.rehomed P =
    { x with fields := { x.fields with home := if P < x.fields.home then 0 else x.fields.home }
             attn := x.attn || decide (P < x.fields.home), dirty := x.dirty || decide (P < x.fields.home) } := by
  by_cases beyond : P < x.fields.home <;> simp [SlotState.rehomed, h, beyond]

theorem SlotState.rankHeld_of_tool (h : x.fields.occupied = true) : x.rankHeld shared =
    { x with fields := { x.fields with hold := x.fields.hold || shared }
             attn := x.attn || shared, dirty := x.dirty || (shared && !x.fields.hold) } := by
  cases shared <;> simp [SlotState.rankHeld, h]

theorem SlotState.seeded_of_tool (h : x.fields.occupied = true) : x.seeded =
    { x with attn := x.attn || x.fields.condition.callsAttention || x.fields.location.isUnknown } := by
  unfold SlotState.seeded
  rw [h, Bool.true_and]
  split
  · rename_i calls; rw [Bool.or_assoc, calls, Bool.or_true]
  · rename_i calls; rw [Bool.or_assoc, Bool.eq_false_iff.2 calls, Bool.or_false]

/-- R170–R172: the slot of a tool after the scan, field by field. -/
theorem SlotState.scanned_of_tool (h : x.fields.occupied = true) : x.scanned P moved shared =
    { fields := x.fields.scanned P moved shared
      attn := x.attn || moved || decide (P < x.fields.home) || shared || x.fields.condition.callsAttention ||
        (x.fields.scanned P moved shared).location.isUnknown
      dirty := x.dirty || moved || decide (P < x.fields.home) || (shared && !x.fields.hold)
      storeFault := x.storeFault
      stamp := x.stamp } := by
  have located : (if moved then x.doubted P else x) = { x with
      fields := { x.fields with
        location := if moved then .unknown (keptPocket P x.fields.location.pocketPart) else x.fields.location }
      attn := x.attn || moved, dirty := x.dirty || moved } := by
    cases moved <;> simp [SlotState.doubted]
  rw [SlotState.scanned, located, SlotState.rehomed_of_tool (by exact h),
    SlotState.rankHeld_of_tool (by exact h), SlotState.seeded_of_tool (by exact h)]
  rfl

/-- R170, R171: the record has changed exactly where a repair fell on it. -/
theorem Record.scanned_ne_iff (h : moved = true → r.location ≠ .unknown (keptPocket P r.location.pocketPart)) :
    r.scanned P moved shared ≠ r ↔ moved = true ∨ P < r.home ∨ (shared = true ∧ r.hold = false) := by
  rw [← not_iff_not, not_ne_iff, not_or, not_or]
  constructor
  · intro same
    have location : (if moved then _ else _) = r.location := congrArg Record.location same
    have home : (if P < r.home then 0 else r.home) = r.home := congrArg Record.home same
    have hold : (r.hold || shared) = r.hold := congrArg Record.hold same
    refine ⟨fun hm => h hm ?_, fun lt => ?_, fun ⟨hs, hh⟩ => ?_⟩
    · rw [if_pos hm] at location; exact location.symm
    · rw [if_pos lt] at home; omega
    · rw [hs, hh] at hold; cases hold
  · rintro ⟨hm, hp, hs⟩
    have hold : (r.hold || shared) = r.hold := by cases hr : r.hold <;> simp_all
    rw [Record.scanned, if_neg hm, if_neg hp, hold]

end

/-! ### The scan as a whole -/

/-- The tools whose home pocket lies beyond the ring, in slot order (R171). -/
def ScanWork.homeless (P : Nat) (v : ScanWork) : List Slot :=
  slots.filter fun k => (v.record k).occupied && decide (P < (v.record k).home)

/-- The tools with HOLD clear that a lower slot shares tool number and rank with, in slot order (R171). -/
def ScanWork.unheld (v : ScanWork) : List Slot :=
  slots.filter fun k => (v.record k).occupied && v.rankBelow k && !(v.record k).hold

/-- R170–R172: what the scan made of the loaded work `v`, with the slots `U` repaired by the location passes. -/
structure ScanWork.ScannedFrom (P : Nat) (v : ScanWork) (U : List Slot) (w : ScanWork) : Prop where
  slot : ∀ k : Slot, w.image[k] = (v.image[k]).scanned P (decide (k ∈ U)) (v.rankBelow k)
  handings : w.handings =
    v.handings ++ U.map (·, .urgent) ++ (v.homeless P).map (·, .normal) ++ v.unheld.map (·, .normal)
  nodup : U.Nodup
  doubtful : ∀ k ∈ U, v.Doubtful P k

theorem scanRepairs_eq (P : Nat) (image : Image) : scanRepairs P image =
    slots.foldl scanSeed (slots.foldl scanDuplicate (slots.foldl (scanHome P) (locatedWork P ⟨image, []⟩))) := rfl

theorem SlotState.rehomed_fields (P : Nat) (x : SlotState) : (x.rehomed P).fields =
    { x.fields with home := if x.fields.occupied && decide (P < x.fields.home) then 0 else x.fields.home } := by
  unfold SlotState.rehomed
  split <;> rfl

/-- R170–R172: the location passes, the field repairs and the seeding, one after another. -/
theorem scanned_of_located {P : Nat} {v u : ScanWork} {U : List Slot} (h : v.Relocates P U u) :
    v.ScannedFrom P U (slots.foldl scanSeed (slots.foldl scanDuplicate (slots.foldl (scanHome P) u))) := by
  obtain ⟨home_slot, home_handings⟩ := scanHome_pass P u
  obtain ⟨dup_slot, dup_handings⟩ := scanDuplicate_pass (slots.foldl (scanHome P) u)
  obtain ⟨seed_slot, seed_handings⟩ := scanSeed_pass (slots.foldl scanDuplicate (slots.foldl (scanHome P) u))
  have located (k : Slot) : u.image[k] = if decide (k ∈ U) then (v.image[k]).doubted P else v.image[k] := by
    by_cases hk : k ∈ U
    · rw [(h.doubts k).2 hk, if_pos (by simpa using hk)]
    · rw [(h.doubts k).1 hk, if_neg (by simpa using hk)]
  have tags (k : Slot) : (u.record k).condition = (v.record k).condition ∧ (u.record k).tool = (v.record k).tool ∧
      (u.record k).rank = (v.record k).rank := by
    rw [ScanWork.record, ScanWork.record, located]
    split <;> exact ⟨rfl, rfl, rfl⟩
  have home (k : Slot) : (u.record k).home = (v.record k).home := by
    rw [ScanWork.record, ScanWork.record, located]
    split <;> rfl
  have hold (k : Slot) : (u.record k).hold = (v.record k).hold := by
    rw [ScanWork.record, ScanWork.record, located]
    split <;> rfl
  have home_fields (k : Slot) : (slots.foldl (scanHome P) u).record k = { u.record k with
      home := if (u.record k).occupied && decide (P < (u.record k).home) then 0 else (u.record k).home } := by
    rw [ScanWork.record, home_slot, SlotState.rehomed_fields]; rfl
  have below (k : Slot) : (slots.foldl (scanHome P) u).rankBelow k = v.rankBelow k :=
    ScanWork.rankBelow_congr (fun j => by
      rw [home_fields]
      exact tags j) k
  have occupied (k : Slot) : (u.record k).occupied = (v.record k).occupied := h.doubts.occupied k
  refine ⟨fun k => ?_, ?_, h.nodup, h.doubtful⟩
  · rw [seed_slot, dup_slot, home_slot, located, below]; rfl
  · have homeless : (slots.filter fun k => (u.record k).occupied && decide (P < (u.record k).home)) = v.homeless P :=
      List.filter_congr fun k _ => by rw [occupied, home]
    have unheld : (slots.filter fun k => ((slots.foldl (scanHome P) u).record k).occupied &&
        (slots.foldl (scanHome P) u).rankBelow k && !((slots.foldl (scanHome P) u).record k).hold) = v.unheld :=
      List.filter_congr fun k _ => by
        rw [below, home_fields, ← occupied, ← hold]; rfl
    rw [seed_handings, dup_handings, home_handings, h.handings, homeless, unheld]

/-- R170–R172: the result of the scan over a loaded image. -/
theorem exists_scannedFrom (P : Nat) (image : Image) : ∃ transit beyond shared spindle large,
    LocationPasses P ⟨image, []⟩ transit beyond shared spindle large ∧
      ScanWork.ScannedFrom P ⟨image, []⟩ (transit ++ beyond ++ shared ++ spindle ++ large) (scanRepairs P image) := by
  obtain ⟨transit, beyond, shared, spindle, large, passes, located⟩ := exists_locationPasses P ⟨image, []⟩
  exact ⟨transit, beyond, shared, spindle, large, passes, scanRepairs_eq P image ▸ scanned_of_located located⟩

/-! ### What the scan establishes -/

section
variable {P : Nat} {v w : ScanWork} {U : List Slot} {k : Slot}

theorem ScanWork.ScannedFrom.record_of_tool (h : v.ScannedFrom P U w) (tool : (v.record k).occupied = true) :
    w.record k = (v.record k).scanned P (decide (k ∈ U)) (v.rankBelow k) := by
  rw [ScanWork.record, h.slot, SlotState.scanned_of_tool tool]; rfl

/-- R171: a vacant slot is as it was loaded. -/
theorem ScanWork.ScannedFrom.slot_of_vacant (h : v.ScannedFrom P U w) (vacant : (v.record k).occupied = false) :
    w.image[k] = v.image[k] := by
  have unmoved : decide (k ∈ U) = false :=
    decide_eq_false fun hk => Bool.false_ne_true (vacant.symm.trans (h.doubtful k hk).1)
  rw [h.slot, unmoved, SlotState.scanned_of_vacant vacant]

/-- R170: a location has changed exactly where a location pass repaired it. -/
theorem ScanWork.ScannedFrom.location_ne_iff (h : v.ScannedFrom P U w) (k : Slot) :
    k ∈ U ↔ (w.record k).location ≠ (v.record k).location := by
  by_cases tool : (v.record k).occupied = true
  · rw [h.record_of_tool tool]
    by_cases hk : k ∈ U
    · exact iff_of_true hk (by simpa [Record.scanned, hk] using (h.doubtful k hk).2.symm)
    · exact iff_of_false hk (by simp [Record.scanned, hk])
  · have same := h.slot_of_vacant (Bool.eq_false_iff.2 tool)
    exact iff_of_false (fun hk => tool (h.doubtful k hk).1) fun e => e (by rw [ScanWork.record, same]; rfl)

/-- R170, R171: the records after the scan. -/
theorem ScanWork.ScannedFrom.repaired (h : v.ScannedFrom P U w) : ScanRepaired P v.record w.record := by
  intro k
  refine ⟨fun vacant => ?_, fun tool => ?_⟩
  · rw [ScanWork.record, h.slot_of_vacant ((Record.occupied_eq_false _).2 vacant)]; rfl
  · rw [h.record_of_tool ((Record.occupied_iff _).2 tool)]
    refine ⟨rfl, ?_, ?_⟩
    · rw [← ScanWork.rankBelow_iff, ← Bool.or_eq_true]; rfl
    · by_cases hk : k ∈ U
      · refine .inr ⟨keptPocket P (v.record k).location.pocketPart, by simp [Record.scanned, hk], fun p => ?_⟩
        simp [keptPocket, Option.filter_eq_some_iff]
      · exact .inl (by simp [Record.scanned, hk])

/-- R170, R171: a tool's record has changed exactly where a repair fell on it. -/
theorem ScanWork.ScannedFrom.record_ne_iff (h : v.ScannedFrom P U w) (tool : (v.record k).occupied = true) :
    w.record k ≠ v.record k ↔
      k ∈ U ∨ P < (v.record k).home ∨ (v.rankBelow k = true ∧ (v.record k).hold = false) := by
  rw [h.record_of_tool tool, Record.scanned_ne_iff fun moved => (h.doubtful k (of_decide_eq_true moved)).2,
    decide_eq_true_eq]

theorem Condition.callsAttention_iff (c : Condition) :
    c.callsAttention = true ↔ c = .nearEnd ∨ c = .worn ∨ c = .damaged := by
  cases c <;> simp [Condition.callsAttention]

/-- R172: ATTN after the scan, on a tool. -/
theorem ScanWork.ScannedFrom.attn_iff (h : v.ScannedFrom P U w) (tool : (v.record k).occupied = true) :
    (w.image[k]).attn = true ↔ (v.image[k]).attn = true ∨ w.record k ≠ v.record k ∨ v.rankBelow k = true ∨
      (w.record k).condition.callsAttention = true ∨ (w.record k).location.isUnknown = true := by
  rw [h.record_ne_iff tool, h.record_of_tool tool, h.slot, SlotState.scanned_of_tool tool]
  simp only [Bool.or_eq_true, decide_eq_true_eq, or_assoc]
  exact or_congr_right (by tauto)

/-- R172: DIRTY after the scan, on a tool. -/
theorem ScanWork.ScannedFrom.dirty_iff (h : v.ScannedFrom P U w) (tool : (v.record k).occupied = true) :
    (w.image[k]).dirty = true ↔ (v.image[k]).dirty = true ∨ w.record k ≠ v.record k := by
  rw [h.record_ne_iff tool, h.slot, SlotState.scanned_of_tool tool]
  simp only [Bool.or_eq_true, Bool.and_eq_true, Bool.not_eq_true', decide_eq_true_eq, or_assoc]
  rfl

/-- R170–R172: the flags after the scan. -/
theorem ScanWork.ScannedFrom.flagged (h : v.ScannedFrom P U w) : ScanFlagged v.image w.image := by
  intro k
  by_cases tool : (v.record k).occupied = true
  · have present : (w.record k).condition ≠ .vacant := by
      rw [h.record_of_tool tool]; exact (Record.occupied_iff _).1 tool
    refine ⟨?_, h.dirty_iff tool, ?_⟩
    · rw [h.attn_iff tool, ScanWork.rankBelow_iff, Condition.callsAttention_iff, Location.isUnknown_iff]
      exact or_congr_right (or_congr_right (or_congr (and_iff_right present).symm
        (or_congr_right (and_iff_right present).symm)))
    · rw [h.slot, SlotState.scanned_of_tool tool]; exact ⟨rfl, rfl⟩
  · have vacant := (Record.occupied_eq_false _).1 (Bool.eq_false_iff.2 tool)
    have condition : ((v.image[k]).fields).condition = .vacant := vacant
    simp only [h.slot_of_vacant (Bool.eq_false_iff.2 tool), condition, ne_eq, not_true_eq_false, false_and, or_false,
      reduceCtorEq, and_self]

/-- R172: the queue that the handings of a scan build. -/
theorem ScanWork.ScannedFrom.queue (h : v.ScannedFrom P U w) (empty : v.handings = []) :
    let home := (v.homeless P).filter (fun k => decide (k ∉ U))
    w.queue = { urgent := U.map .slot
                normal := (home ++ v.unheld.filter (fun k => decide (k ∉ U ∧ k ∉ home))).map .slot } :=
  w.queue_of_handings U (v.homeless P) v.unheld h.nodup (slots_nodup.filter _) (slots_nodup.filter _)
    (by rw [h.handings, empty, List.nil_append])

theorem ScanWork.mem_homeless : k ∈ v.homeless P ↔ (v.record k).condition ≠ .vacant ∧ P < (v.record k).home := by
  simp [ScanWork.homeless, mem_slots, Record.occupied_iff]

theorem ScanWork.mem_unheld : k ∈ v.unheld ↔
    (v.record k).condition ≠ .vacant ∧ (v.record k).hold = false ∧ ∃ j, ranksBelow v.record j k := by
  rw [← ScanWork.rankBelow_iff]
  simp [ScanWork.unheld, mem_slots, Record.occupied_iff, and_assoc, and_comm (a := v.rankBelow k = true)]

end

section
variable {P : Nat} {v w : ScanWork} {transit beyond shared spindle large : List Slot}

/-- R170: the fifth pass repairs the tools that the first four left in their pockets and that are no longer there. -/
theorem ScanWork.ScannedFrom.mem_large_iff (passes : LocationPasses P v transit beyond shared spindle large)
    (h : v.ScannedFrom P (transit ++ beyond ++ shared ++ spindle ++ large) w) (k : Slot) :
    k ∈ large ↔ ∃ p, v.Keeps P k p ∧ (w.record k).location ≠ .pocket p := by
  have changed := h.location_ne_iff k
  constructor
  · intro hk
    obtain ⟨p, keeps⟩ := passes.large_keeps k hk
    have ⟨_, stands, _⟩ := keeps
    exact ⟨p, keeps, stands.2 ▸ changed.1 (List.mem_append_right _ hk)⟩
  · rintro ⟨p, ⟨hp, stands, lowest⟩, left⟩
    rw [← stands.2] at left
    have moved := changed.2 left
    simp only [List.mem_append, or_assoc] at moved
    rcases moved with hk | hk | hk | hk | hk
    · obtain ⟨q, e | e⟩ := (passes.transit_iff k).1 hk <;> cases stands.unique e
    · obtain ⟨q, hq, e | e⟩ := (passes.beyond_iff k).1 hk <;> cases stands.unique e
      exact absurd hp (Nat.not_le.2 hq)
    · obtain ⟨q, -, e, j, lt, hj⟩ := (passes.shared_iff k).1 hk
      cases stands.unique e
      exact absurd hj (lowest j lt)
    · cases stands.unique ((passes.spindle_iff k).1 hk).1
    · exact hk

theorem ScanWork.stands_iff (v : ScanWork) (k : Slot) (l : Location) :
    v.Stands k l ↔ (v.record k).condition ≠ .vacant ∧ (v.record k).location = l := by
  rw [ScanWork.Stands, Record.occupied_iff]

theorem ScanWork.keeps_iff (v : ScanWork) (k : Slot) (p : Nat) : v.Keeps P k p ↔ (v.record k).condition ≠ .vacant ∧
    p ≤ P ∧ (v.record k).location = .pocket p ∧
      ∀ j, j < k → (v.record j).condition ≠ .vacant → (v.record j).location ≠ .pocket p := by
  simp only [ScanWork.Keeps, ScanWork.stands_iff, not_and]
  tauto

/-- R170–R172: the queue after the scan. -/
theorem ScanWork.ScannedFrom.queued (passes : LocationPasses P v transit beyond shared spindle large)
    (h : v.ScannedFrom P (transit ++ beyond ++ shared ++ spindle ++ large) w) (empty : v.handings = []) :
    ScanQueued P v.record w.record w.queue := by
  have queue := h.queue empty
  have urgent (k : Slot) : Entry.slot k ∈ w.queue.urgent ↔ k ∈ transit ++ beyond ++ shared ++ spindle ++ large := by
    rw [queue]; simp
  have pocketed : ((∀ k, (v.record k).condition ≠ .vacant → (v.record k).numbered) → ∀ k p, v.Keeps P k p → 1 ≤ p) :=
    fun numbered k p ⟨_, ⟨tool, hl⟩, _⟩ => numbered k ((Record.occupied_iff _).1 tool) p (by rw [hl]; rfl)
  have sorted := passes.sorted
  obtain ⟨-, largeNodup, -⟩ := List.nodup_append.1 h.nodup
  refine ⟨transit, beyond, shared, spindle, large, _, _, by rw [queue], by rw [queue], ?_,
    largeNodup, fun k => ?_, fun k => ?_, fun k => ?_, fun k => ?_, fun k => ?_,
    fun numbered => ?_, fun k => (urgent k).trans (h.location_ne_iff k), fun k => ?_, fun k => ?_⟩
  · simp only [List.forall_mem_cons, List.not_mem_nil, false_imp_iff, implies_true, and_true] at sorted ⊢
    obtain ⟨transit_sorted, beyond_sorted, shared_sorted, spindle_sorted⟩ := sorted
    exact ⟨transit_sorted, beyond_sorted, shared_sorted, spindle_sorted, (sorted_filter_slots _).filter _,
      (sorted_filter_slots _).filter _⟩
  · simp only [passes.transit_iff, ScanWork.stands_iff, ← and_or_left, exists_and_left]
  · simp only [passes.beyond_iff, ScanWork.stands_iff, ← and_or_left,
      and_left_comm (b := (v.record k).condition ≠ .vacant), exists_and_left]
  · simp only [passes.shared_iff, ScanWork.StandsAbove, ScanWork.stands_iff, and_assoc,
      and_left_comm (b := (v.record k).condition ≠ .vacant), exists_and_left]
  · simp only [passes.spindle_iff, ScanWork.StandsAbove, ScanWork.stands_iff, and_assoc]
  · simp only [h.mem_large_iff passes, ScanWork.keeps_iff, and_assoc, exists_and_left]
  · have keeps := funext fun k => funext fun p => propext (v.keeps_iff (P := P) k p)
    exact keeps ▸ passes.large_pass (pocketed numbered)
  · rw [List.mem_filter, ScanWork.mem_homeless, urgent, decide_eq_true_eq, and_assoc]
  · rw [List.mem_filter, ScanWork.mem_unheld, urgent, decide_eq_true_eq, and_assoc, and_assoc]

end

section
variable {P p : Nat} {v w : ScanWork} {U : List Slot} {k : Slot}

/-- R170: a repair keeps a pocket part, or drops it. -/
theorem ScanWork.ScannedFrom.pocketPart_of (h : v.ScannedFrom P U w) (tool : (v.record k).occupied = true)
    (hp : (w.record k).location.pocketPart = some p) : (v.record k).location.pocketPart = some p := by
  obtain ⟨-, -, same | ⟨q, unknown, kept⟩⟩ := (h.repaired k).2 ((Record.occupied_iff _).1 tool)
  · rwa [same] at hp
  · rw [unknown] at hp
    exact ((kept p).1 hp).1

theorem neighbours_ne (two : 2 ≤ P) (first : 1 ≤ p) :
    neighbourBefore P p ≠ p ∧ neighbourAfter P p ≠ p := by
  unfold neighbourBefore neighbourAfter
  constructor <;> split <;> omega

end

/-- Settles O55: the passes slot by slot, and the laws that the last pass to establish each of them leaves true. -/
theorem scanRepairsEstablishTheLaws : Obligations.ScanRepairsEstablishTheLaws := by
  intro P image w eight hw
  obtain ⟨transit, beyond, shared, spindle, large, passes, scanned⟩ := exists_scannedFrom P image
  have rests := scanRepairs_rests P image
  have inRing := scanRepairs_inRing P image
  have homes := scanRepairs_homeInRing P image
  have inPocket := scanRepairs_aloneInPocket P image
  have inSpindle := scanRepairs_alone P image
  have room := scanRepairs_roomBeside P image
  have held := scanRepairs_held P image
  have marked (k) := (scanRepairs_step P image k).marked
  have kept (k : Slot) : (w.record k).occupied = ((ScanWork.mk image []).record k).occupied :=
    hw ▸ (scanRepairs_step P image).occupied k
  rw [← hw] at scanned rests inRing homes inPocket inSpindle room held marked
  have tool {k} : (w.record k).condition ≠ .vacant → (w.record k).occupied = true := (Record.occupied_iff _).2
  refine ⟨scanned.repaired, scanned.flagged, scanned.queued passes rfl, fun k p hk => rests k (tool hk) p,
    fun k p hk hp => ⟨?_, fun numbered => numbered p (scanned.pocketPart_of (kept k ▸ tool hk) hp)⟩,
    fun k hk => homes k (tool hk), fun j k p hj hk => ScanWork.one_in_pocket inPocket (tool hj) (tool hk),
    fun j k hj hk lj lk => ?_, fun j k p hj hk first hl lj => ?_, fun j k hk below => held k (tool hk) ⟨j, below⟩,
    fun k changed => (marked k).resolve_left changed⟩
  · rcases (Location.pocketPart_iff _ p).1 hp with e | (e | e) | e
    · exact inRing k (tool hk) p (.inl e)
    · exact absurd e (rests k (tool hk) p).1
    · exact absurd e (rests k (tool hk) p).2
    · exact inRing k (tool hk) p (.inr e)
  · rcases lt_trichotomy j k with lt | e | lt
    · exact absurd lj (inSpindle k (tool hk) lk j lt (tool hj))
    · exact e
    · exact absurd lk (inSpindle j (tool hj) lj k lt (tool hk))
  · have last := inRing j (tool hj) p (.inl lj)
    by_cases e : k = j
    · obtain ⟨before, after⟩ := neighbours_ne (P := P) (by omega) first
      rw [e, lj]
      exact ⟨fun h => before (Location.pocket.inj h).symm, fun h => after (Location.pocket.inj h).symm⟩
    · obtain ⟨before, after⟩ := ring_neighbours P p first last
      rw [← before, ← after]
      exact room j (tool hj) hl p lj k e (tool hk)

/-! ### What the scan loads -/

theorem CopyPair.bothErased_iff {α : Type} (c : CopyPair α) : c.bothErased = true ↔ c.a = .erased ∧ c.b = .erased := by
  obtain ⟨a, b⟩ := c
  cases a <;> cases b <;> simp [CopyPair.bothErased]

section
variable {c : CopyPair Record} {d : CopyPair Configuration}

theorem loadSlot_of_newest {n : Newest} {r : Record} (h : c.newestValid = some (n, r)) :
    loadSlot c = { fields := r, attn := false, dirty := false, storeFault := false, stamp := 0 } := by
  simp only [loadSlot, h]

theorem loadSlot_of_erased (h : c.newestValid = none) (erased : c.a = .erased ∧ c.b = .erased) :
    loadSlot c = SlotState.blank := by
  simp only [loadSlot, h, c.bothErased_iff.2 erased, if_true]

theorem loadSlot_of_lost (h : c.newestValid = none) (lost : ¬ (c.a = .erased ∧ c.b = .erased)) : loadSlot c =
    { fields := Record.vacant, attn := true, dirty := true, storeFault := true, stamp := 0 } := by
  simp only [loadSlot, h]
  exact if_neg (mt c.bothErased_iff.1 lost)

/-- R169: every slot is loaded with its stamp at 0. -/
theorem loadSlot_stamp (c : CopyPair Record) : (loadSlot c).stamp = 0 := by
  unfold loadSlot
  split
  · rfl
  · split <;> rfl

theorem loadConfig_of_newest {n : Newest} {v : Configuration} (h : d.newestValid = some (n, v)) :
    loadConfig d = (v, false) := by
  simp only [loadConfig, h]

theorem loadConfig_of_none (h : d.newestValid = none) : loadConfig d = (Configuration.blank, !d.bothErased) := by
  simp only [loadConfig, h]

/-- R169: CONFIG_FAULT is raised where no copy is valid and the pair is not erased. -/
theorem loadConfig_fault_iff :
    (loadConfig d).2 = true ↔ d.newestValid = none ∧ ¬ (d.a = .erased ∧ d.b = .erased) := by
  cases h : d.newestValid with
  | none => rw [loadConfig_of_none h, Bool.not_eq_true', Bool.eq_false_iff, ne_eq, d.bothErased_iff]; simp
  | some x => rw [loadConfig_of_newest h]; simp

end

/-! ### The spindle after the scan -/

/-- R173: the spindle after the scan is UNKNOWN where no tool is in it and some tool is UNKNOWN. -/
theorem ScanWork.spindle_unknown_iff (w : ScanWork) : w.spindle = .unknown ↔
    (∀ k, (w.record k).condition ≠ .vacant → (w.record k).location ≠ .spindle) ∧
      ∃ k p, (w.record k).condition ≠ .vacant ∧ (w.record k).location = .unknown p := by
  unfold ScanWork.spindle
  cases hf : slots.find? (fun k => (w.record k).occupied && (w.record k).location == .spindle) with
  | some k =>
    have hk := List.find?_some hf
    rw [Bool.and_eq_true, beq_iff_eq, Record.occupied_iff] at hk
    exact iff_of_false (fun e => nomatch e) fun e => e.1 k hk.1 hk.2
  | none =>
    have free : ∀ k, (w.record k).condition ≠ .vacant → (w.record k).location ≠ .spindle := by
      simpa [mem_slots, Record.occupied_iff] using List.find?_eq_none.1 hf
    have doubt : slots.any (fun k => (w.record k).occupied && (w.record k).location.isUnknown) = true ↔
        ∃ k p, (w.record k).condition ≠ .vacant ∧ (w.record k).location = .unknown p := by
      simp [mem_slots, Record.occupied_iff, Location.isUnknown_iff]
    rw [and_iff_right free, ← doubt]
    dsimp only
    split
    · rename_i h; exact iff_of_true rfl h
    · rename_i h; exact iff_of_false (fun e => nomatch e) h

/-! ### The state at the completion -/

section
variable (s : State)

/-- R134, R148, R174: the Host Port at the completion of a scan. -/
theorem State.enterScan_host : s.enterScan.host =
    { s.host with
      workState := .empty, stageP := BitVec.ofNat 8 (loadConfig s.cfgCopies).1.pockets
      stagePolicy := byteNat (loadConfig s.cfgCopies).1.policy.code
      stageTimeout := BitVec.ofNat 8 (loadConfig s.cfgCopies).1.timeout, enable := 0
      causes := { Causes.clear with configFault := (loadConfig s.cfgCopies).2 } } := by
  obtain ⟨repairs, e⟩ : ∃ f, f = scanRepairs := ⟨_, rfl⟩
  rewrite [State.enterScan, ← e]
  rfl

theorem State.enterScan_newest (k : Slot) : s.enterScan.newest[k] = (s.slotCopies[k]).newestValid.map Prod.fst := by
  have newest : s.enterScan.newest = s.slotCopies.map (fun p => p.newestValid.map Prod.fst) := rfl
  rw [newest]; simp

/-- R168: what the completion of a scan leaves unchanged, with the settle interval that does not run. -/
theorem State.enterScan_kept : s.enterScan.settleRunning = false ∧ s.enterScan.resetLow = s.resetLow ∧
    s.enterScan.link = s.link ∧ s.enterScan.lostAnswer = s.lostAnswer ∧ s.enterScan.slotCopies = s.slotCopies ∧
    s.enterScan.cfgCopies = s.cfgCopies ∧ s.enterScan.pending = s.pending := by
  obtain ⟨repairs, e⟩ : ∃ f, f = scanRepairs := ⟨_, rfl⟩
  rewrite [State.enterScan, ← e]
  exact ⟨rfl, rfl, rfl, rfl, rfl, rfl, rfl⟩

/-- R15, R169: the stamp of every slot is 0 after the scan. -/
theorem State.enterScan_stamp (k : Slot) : (s.enterScan.slot k).stamp = 0 := by
  rw [State.enterScan_slot, (s.scanWork_slot k).stamp, loadSlot_stamp]

end

/-- R168: a state that the completion of a scan may lead to differs from `s` in the fields named alone. -/
theorem State.completed_eq (s : State) {t : State} (kept : t.settleRunning = false ∧ t.resetLow = s.resetLow ∧
      t.link = s.link ∧ t.lostAnswer = s.lostAnswer ∧ t.slotCopies = s.slotCopies ∧ t.cfgCopies = s.cfgCopies ∧
      t.pending = s.pending) :
    t = { s with
      opState := t.opState, settleRunning := false, imageHeld := t.imageHeld, image := t.image, config := t.config
      spindle := t.spindle, exchange := t.exchange, nextTag := t.nextTag, confirmation := t.confirmation
      host := t.host, queue := t.queue, flight := t.flight, newest := t.newest, cfgNewest := t.cfgNewest
      confirmFrom := t.confirmFrom } := by
  obtain ⟨settle, resetLow, link, lostAnswer, slotCopies, cfgCopies, pending⟩ := kept
  rw [← settle, ← resetLow, ← link, ← lostAnswer, ← slotCopies, ← cfgCopies, ← pending]

theorem exec_scanComplete_of_scanning {s : State} (scanning : s.opState = .scanning) :
    exec .scanComplete s = .next s.enterScan.startFlight := by
  change Host.Outcome.next s.completeScan = _
  rw [State.completeScan, if_pos scanning]

/-- R153, R168: the flight that starts in the step of the completion. -/
theorem State.enterScan_startFlight (s : State) {k : Slot} {cls : CommitClass} {rest : CommitQueue}
    (h : s.scanWork.queue.TakesHead (.slot k) cls rest) : s.enterScan.startFlight = { s.enterScan with
      queue := rest
      flight := some { content := .slot k (s.enterScan.record k) 0, cls, attempt := 1
                       target := targetOf s.enterScan.newest[k], gen := generationOf s.enterScan.newest[k]
                       confirmSet := false } } := by
  rw [State.startFlight_of_takesHead rfl rfl (s.enterScan_queue ▸ h), State.snapshot, State.enterScan_stamp]
  rfl

/-- Settles O54: the scan of the loaded image, and then the start of the first flight. -/
theorem scanCompletes : Obligations.ScanCompletes := by
  intro s scanning
  obtain ⟨transit, beyond, shared, spindle, large, passes, scanned⟩ :=
    exists_scannedFrom (loadConfig s.cfgCopies).1.pockets s.loadedImage
  have host : s.enterScan.startFlight.host = _ := s.enterScan.startFlight_host.trans s.enterScan_host
  have image : s.enterScan.startFlight.image = s.scanWork.image :=
    s.enterScan.startFlight_image.trans s.enterScan_image
  have record : s.enterScan.startFlight.record = s.scanWork.record :=
    funext fun k => (State.record_eq _ _ s.enterScan.startFlight_image k).trans (s.enterScan_record k)
  have spindle : s.enterScan.startFlight.spindle = s.scanWork.spindle :=
    s.enterScan.startFlight_spindle.trans s.enterScan_spindle
  have newest (k : Slot) : s.enterScan.startFlight.newest[k] = (s.slotCopies[k]).newestValid.map Prod.fst := by
    rw [s.enterScan.startFlight_newest, s.enterScan_newest]
  have work : scanRepairs (loadConfig s.cfgCopies).1.pockets s.loadedImage = s.scanWork := rfl
  rw [work] at scanned
  have holds := ScanWork.spindle_holds s.scanWork_alone
  simp only [Record.occupied_iff] at holds
  refine ⟨_, (loadConfig s.cfgCopies).1, exec_scanComplete_of_scanning scanning, s.enterScan.startFlight_opState,
    s.enterScan.startFlight_imageHeld, s.enterScan.startFlight_config.trans s.enterScan_config,
    fun n v h => by rw [loadConfig_of_newest h], fun h => by rw [loadConfig_of_none h]; rfl,
    by rw [host]; exact loadConfig_fault_iff, by rw [host]; rfl, fun k => ?_, image, ?_, ?_,
    ⟨s.scanWork.queue, ?_, fun hu hn => ?_, fun k cls rest taken => ?_⟩,
    fun k hk => ?_, fun k tool hk => ?_, ?_, ?_, s.enterScan.startFlight_exchange, s.enterScan.startFlight_nextTag,
    s.enterScan.startFlight_confirmation, fun k => ?_, newest, s.enterScan.startFlight_cfgNewest,
    by rw [host], by rw [host], by rw [host], by rw [host], ?_, by rw [host], ?_⟩
  · rw [s.loadedImage_slot]
    exact ⟨fun n r h => loadSlot_of_newest h, loadSlot_of_erased, loadSlot_of_lost⟩
  · rw [record]; exact scanned.repaired
  · rw [image]; exact scanned.flagged
  · rw [record]; exact scanned.queued passes rfl
  · rw [State.startFlight_of_idle (.inr (.inr (s.enterScan_queue ▸ ⟨hu, hn⟩)))]
    exact ⟨rfl, s.enterScan_queue⟩
  · rw [newest, record, s.enterScan_startFlight taken, s.enterScan_record, s.enterScan_newest]
    refine ⟨rfl, _, rfl, rfl, rfl, rfl, rfl, fun g h => ?_, fun g h => ?_⟩ <;> rw [h] <;> exact ⟨rfl, rfl⟩
  · rw [record]; exact (holds k).1 (spindle ▸ hk)
  · rw [record] at tool hk
    exact spindle.trans ((holds k).2 ⟨tool, hk⟩)
  · rw [spindle, record]; exact s.scanWork.spindle_unknown_iff
  · rw [spindle]; exact s.scanWork.spindle_ne_exchanging
  · rw [s.enterScan.startFlight_confirmFrom]
    exact Vector.getElem_replicate ..
  · rw [host]
    cases (loadConfig s.cfgCopies).1.policy <;> rfl
  · exact s.completed_eq (by simpa using s.enterScan_kept)

end Sys2Proof.Machine
